-- ==== Sys2Proof/Word.lean ====
section
/-! DEFINITION. The value types of the block: bytes, register words, window offsets (00_scope.md R8).
Every value is unsigned; bit 0 is the least significant. -/
namespace Sys2Proof

/-- A byte: an unsigned 8-bit value (00_scope.md R8). -/
abbrev Byte := BitVec 8

/-- A 32-bit register word (00_scope.md R5, `REG_WIDTH`). -/
abbrev Word := BitVec 32

/-- A window offset: the 12 bits of a bus address below BASE's 4096-byte boundary (20_memory.md R38). -/
abbrev Offset := BitVec 12

/-- `zext_32` of a field of at most 32 bits (00_scope.md R8). -/
abbrev zext32 {n : Nat} (v : BitVec n) : Word := v.setWidth 32

end Sys2Proof
end

