-- ==== Sys2Proof/Config.lean ====
section
/-! DEFINITION. What is fixed when the block is built (00_scope.md R5, R6, R7) and the free values: the
seven OPEN codes and BASE are constants without a value, and so is every buffer byte that nothing has
written since power-on. -/
namespace Sys2Proof

/-- The seven OPEN category and function codes (00_scope.md R6, D17). The other four are constants of
this hardware, below. -/
structure Codes where
  catTimer : Byte
  fnTimerAutoLight : Byte
  fnTimerAutoMusic : Byte
  fnTimerAlarm1 : Byte
  fnTimerAlarm2 : Byte
  fnTimerAlarm3 : Byte
  fnSpeakerEqualizer : Byte
deriving DecidableEq, Repr

/-- First header byte `HDR0` (00_scope.md R5). -/
abbrev Config.hdr0 : Byte := 0x55
/-- Second header byte `HDR1` (00_scope.md R5). -/
abbrev Config.hdr1 : Byte := 0xAA
/-- `HDR_LEN`: offsets 0 to 4 of a frame (00_scope.md R5). -/
abbrev Config.hdrLen : Nat := 5
/-- `MAX_PAYLOAD` (00_scope.md R5, D14). -/
abbrev Config.maxPayload : Nat := 255
/-- `MAX_FRAME` (00_scope.md R5). -/
abbrev Config.maxFrame : Nat := 261
/-- `BUF_SIZE` of IBUF and of OBUF (00_scope.md R5, D5). -/
abbrev Config.bufSize : Nat := 512
/-- `WINDOW_SIZE` (00_scope.md R5, D3). -/
abbrev Config.windowSize : Nat := 4096
/-- `REG_WIDTH`, the width of every register in the register window (00_scope.md R5, D6). -/
abbrev Config.regWidth : Nat := 32
/-- `CAT_LIGHT` (00_scope.md R6). -/
abbrev Config.catLight : Byte := 0x88
/-- `FN_LIGHT_STATUS` (00_scope.md R6). -/
abbrev Config.fnLightStatus : Byte := 0x15
/-- `CAT_SPEAKER` (00_scope.md R6). -/
abbrev Config.catSpeaker : Byte := 0x84
/-- `FN_SPEAKER_VOLUME` (00_scope.md R6). -/
abbrev Config.fnSpeakerVolume : Byte := 0x04

/-- The eight dispatch pairs, in the order of 00_scope.md R7. -/
def Codes.pairs (c : Codes) : List (Byte × Byte) :=
  [(Config.catLight, Config.fnLightStatus), (c.catTimer, c.fnTimerAutoLight),
   (c.catTimer, c.fnTimerAutoMusic), (c.catTimer, c.fnTimerAlarm1), (c.catTimer, c.fnTimerAlarm2),
   (c.catTimer, c.fnTimerAlarm3), (Config.catSpeaker, Config.fnSpeakerVolume),
   (Config.catSpeaker, c.fnSpeakerEqualizer)]

/-- A configuration is well formed when the eight pairs are pairwise distinct (00_scope.md R7, D18). -/
abbrev Codes.WellFormed (c : Codes) : Prop := c.pairs.Nodup

/-- A well-formed configuration. An ill-formed one cannot be built: "a model refuses an ill-formed
configuration" (00_scope.md R7). The field defaults are the placeholders TC of 95_test_vectors.md §0; they
only show that the type has an element, and nothing else uses them. -/
structure Configuration where
  codes : Codes := ⟨0xE0, 0xE1, 0xE2, 0xE3, 0xE4, 0xE5, 0xE6⟩
  wellFormed : codes.WellFormed := by decide
deriving Inhabited

/-- DESIGN CHOICE, log 7, safe: the block's configuration, a constant without a value. What is proved
of it holds for every well-formed choice of the OPEN codes (00_scope.md R6). -/
opaque Config.configuration : Configuration

/-- The codes the block was built with (00_scope.md R6). -/
def Config.codes : Codes := Config.configuration.codes

/-- DESIGN CHOICE, log 8, safe: which 4096-byte page of the bus the window stands in; OPEN (00_scope.md R5). -/
opaque Config.basePage : Nat

/-- `BASE`, a multiple of 4096 chosen by the platform (00_scope.md R5, D3). -/
def Config.base : Nat := Config.windowSize * Config.basePage

/-- The bus address of a window offset (20_memory.md R38). No other definition uses it: every address of
the spec, and of this model, is an offset from BASE. -/
def Config.busAddress (offset : Offset) : Nat := Config.base + offset.toNat

/-- DESIGN CHOICE, log 5, safe: a FREE VALUE. The byte at a window offset that nothing has written since
the power-on reset number `epoch` (10_state.md R33, R34; 70_reset_and_hazards.md R134: "an unspecified
value"). -/
opaque Config.powerOnByte (epoch offset : Nat) : Byte

end Sys2Proof
end

