-- ==== Sys2Proof/Syntax.lean ====
section
/-! DEFINITION. The instructions: one constructor per row of spec/opcode_table.json; the host bus
transactions and the other codes they are decoded from (30_encoding.md R55 to R59, R69). -/
namespace Sys2Proof

/-- Direction of a host transaction: `R` or `W` (30_encoding.md R69). -/
inductive Dir where
  | read
  | write
deriving DecidableEq, Repr

/-- A host bus transaction `(dir, n, addr, data)` (30_encoding.md R69), legal or not. `width` is `n`, the
width in bytes, of any size; `data` is the written value of a write (of a byte write: its bits 7:0), and
means nothing in a read. -/
structure Transaction where
  dir : Dir
  width : Nat
  addr : Offset
  data : Word
deriving DecidableEq, Repr

/-- The two steps of a command: the CMD write that starts it (44_command_interface.md R115) and the
engine's completion step (R116). DEDUCED, log 9. -/
inductive Phase where
  /-- the host's CMD write -/
  | start
  /-- the engine's completion step -/
  | complete
deriving DecidableEq, Repr

/-- One constructor per row of spec/opcode_table.json. Bits that the spec says are ignored (w[31:3] of a
CMD word, w[30:1] of a CTRL word, all of a STATUS word but bits 1 and 8) are no operands. -/
inductive Instr where
  /-- CKSUM, 40_checksum.md R77 -/
  | cksum (phase : Phase)
  /-- ENCODE, 41_frame_builder.md R82 -/
  | encode (phase : Phase)
  /-- DECODE, 42_frame_parser.md R102 -/
  | decode (phase : Phase)
  /-- RESERVED_OP0, 44_command_interface.md R118 -/
  | reservedOp0 (phase : Phase)
  /-- RESERVED_OP4, 44_command_interface.md R118 -/
  | reservedOp4 (phase : Phase)
  /-- RESERVED_OP5, 44_command_interface.md R118 -/
  | reservedOp5 (phase : Phase)
  /-- RESERVED_OP6, 44_command_interface.md R118 -/
  | reservedOp6 (phase : Phase)
  /-- RESERVED_OP7, 44_command_interface.md R118 -/
  | reservedOp7 (phase : Phase)
  /-- SRST, 70_reset_and_hazards.md R135: a CTRL word with bit 31 set -/
  | srst
  /-- SET_CTRL, 10_state.md R23: a CTRL word with bit 31 clear; `irqEn` is w[0] -/
  | setCtrl (irqEn : Bool)
  /-- CLEAR_STATUS, 10_state.md R22: a STATUS word; `doneClear` is w[1], `busyWrClear` is w[8] -/
  | clearStatus (doneClear busyWrClear : Bool)
  /-- sw, 44_command_interface.md R111 -/
  | sw (addr : Offset) (w : Word)
  /-- lw, 44_command_interface.md R112 -/
  | lw (addr : Offset)
  /-- sb, 44_command_interface.md R113 -/
  | sb (addr : Offset) (v : Byte)
  /-- lb, 44_command_interface.md R114 -/
  | lb (addr : Offset)
  /-- FRAME_LIGHT_STATUS, dispatch entry 1, 42_frame_parser.md R94 -/
  | frameLightStatus
  /-- FRAME_TIMER_AUTO_LIGHT, dispatch entry 2, 42_frame_parser.md R95 -/
  | frameTimerAutoLight
  /-- FRAME_TIMER_AUTO_MUSIC, dispatch entry 3, 42_frame_parser.md R96 -/
  | frameTimerAutoMusic
  /-- FRAME_TIMER_ALARM_1, dispatch entry 4, 42_frame_parser.md R97 -/
  | frameTimerAlarm1
  /-- FRAME_TIMER_ALARM_2, dispatch entry 5, 42_frame_parser.md R98 -/
  | frameTimerAlarm2
  /-- FRAME_TIMER_ALARM_3, dispatch entry 6, 42_frame_parser.md R99 -/
  | frameTimerAlarm3
  /-- FRAME_SPEAKER_VOLUME, dispatch entry 7, 42_frame_parser.md R100 -/
  | frameSpeakerVolume
  /-- FRAME_SPEAKER_EQUALIZER, dispatch entry 8, 42_frame_parser.md R101 -/
  | frameSpeakerEqualizer
deriving DecidableEq, Repr

/-- What a step decodes: a host transaction, the operation the engine finds latched in CMD.OP, or the
dispatch key of the buffer a pending DECODE reads (30_encoding.md R55, R58, R69). -/
inductive Code where
  /-- a transaction on the host port -/
  | tx (t : Transaction)
  /-- the latched operation of the pending command -/
  | op (o : BitVec 3)
  /-- the dispatch key `{b[3], b[4]}` of a pending DECODE -/
  | key (k : BitVec 16)
deriving DecidableEq, Repr

/-- Why a code decodes to no instruction. The first three are the illegal transactions of 20_memory.md R40;
they end in a bus error (60_exceptions.md R121). -/
inductive DecodeError where
  /-- an access to the register window that is not 4 bytes wide -/
  | registerWidth (addr : Offset)
  /-- a 4-byte access to the register window whose offset is no multiple of 4 -/
  | misaligned (addr : Offset)
  /-- an access at 0x400 or above that is not 1 byte wide -/
  | bufferWidth (addr : Offset)
  /-- a dispatch key that matches no entry (42_frame_parser.md R87). No instruction of the table has such
  a key; the engine's fetch never presents one, because DECODE itself answers `Empty` for it -/
  | unknownKey (key : BitVec 16)
deriving DecidableEq, Repr

/-- The eight entries of the dispatch table (30_encoding.md R59). -/
inductive Entry where
  | lightStatus
  | timerAutoLight
  | timerAutoMusic
  | timerAlarm1
  | timerAlarm2
  | timerAlarm3
  | speakerVolume
  | speakerEqualizer
deriving DecidableEq, Repr

end Sys2Proof
end

