-- ==== Sys2Proof/Machine/State.lean ====
section
/-! DEFINITION. The state of one block (10_state.md R13), the reasons a step can stop, and the state after
power-on reset (70_reset_and_hazards.md R134). -/
namespace Sys2Proof.Machine

/-- Why the machine stops with a fault. -/
inductive Fault where
  /-- An illegal host transaction (20_memory.md R40): raised by a host step whose transaction the decoder
  rejects, and by sw, lw, sb, lb on operands outside their window. Nothing changes and the error goes back
  to the host (60_exceptions.md R121). Safe, log 14: what the host does next is outside the block. -/
  | busError (addr : Offset)
deriving DecidableEq, Repr

/-- Why an instruction has no meaning. -/
inductive Refusal where
  /-- An arm of exec that gives its instruction no meaning yet. Safe: nothing is claimed of it. -/
  | notModelled (mnemonic : String)
  /-- A dispatch key with no entry was presented as an instruction. Safe: the engine's fetch presents only
  keys that have an entry, so no step ends here. -/
  | unknownKey (key : BitVec 16)
deriving DecidableEq, Repr

/-- What the environment lets happen next (44_command_interface.md R110). DESIGN CHOICE, log 1, safe. -/
inductive Event where
  /-- the host issues this transaction -/
  | host (t : Transaction)
  /-- the engine may take its completion step -/
  | engine
  /-- power goes off and on again (60_exceptions.md R133, 70_reset_and_hazards.md R134); log 6 -/
  | powerOn
deriving DecidableEq, Repr

/-- What the host port answered (30_encoding.md R69: the data of a read is the returned value). DESIGN
CHOICE, log 4, safe. -/
inductive Response where
  /-- no transaction since power-on -/
  | none
  /-- a write -/
  | ack
  /-- a 4-byte read returned this value -/
  | word (v : Word)
  /-- a 1-byte read returned this value -/
  | byte (v : Byte)
deriving DecidableEq, Repr

/-- The buffer bytes written since power-on: window offset and byte, offsets strictly rising. An offset not
listed has NO VALUE here; the machine reads the free value of Config.powerOnByte there (log 5). -/
abbrev Memory := List Host.Cell

/-- The window offset belongs to IBUF (0x400 to 0x5FF) or OBUF (0x800 to 0x9FF): 20_memory.md R39. -/
def bufferOffset (a : Nat) : Bool := (0x400 ≤ a && a < 0x600) || (0x800 ≤ a && a < 0xA00)

/-- The canonical form of memory: offsets strictly rising, every one in a buffer. As an unlisted offset has
no value, no entry can equal what it reads as. -/
abbrev Memory.wf (m : Memory) : Prop :=
  m.Pairwise (fun c d => c.1 < d.1) ∧ ∀ c ∈ m, bufferOffset c.1 = true


/-- The state of one block. The first fifteen fields are the whole architectural state (10_state.md R13);
`inputs`, `resp` and `epoch` are the model's own. -/
structure State where
  /-- CMD.OP (R17) -/
  cmdOp : BitVec 3
  /-- STATUS.BUSY (R18) -/
  busy : Bool
  /-- STATUS.DONE (R19) -/
  done : Bool
  /-- STATUS.ERR (R20) -/
  err : BitVec 4
  /-- STATUS.BUSY_WR (R21) -/
  busyWr : Bool
  /-- CTRL.IRQ_EN (R23) -/
  irqEn : Bool
  /-- IBUF_LEN.LEN (R25) -/
  ibufLen : BitVec 16
  /-- OBUF_LEN.LEN (R26) -/
  obufLen : BitVec 16
  /-- ENC_CAT.CAT (R27) -/
  encCat : Byte
  /-- ENC_FN.FN (R28) -/
  encFn : Byte
  /-- CKSUM_RESULT.VALUE (R29) -/
  cksumResult : Byte
  /-- DEC_KIND.KIND (R30) -/
  decKind : BitVec 4
  /-- DEC_COUNT.COUNT (R31) -/
  decCount : BitVec 4
  /-- DEC_FIELD0 to DEC_FIELD7 (R32) -/
  decField : Vector Byte 8
  /-- IBUF (R33) and OBUF (R34), by window offset -/
  mem : Memory
  /-- the model's own: what the environment lets happen next (log 1) -/
  inputs : List Event
  /-- the model's own: the answer to the last host transaction (log 4) -/
  resp : Response
  /-- the model's own: how many power-on resets there were, the index of the free bytes (log 6) -/
  epoch : Nat
deriving DecidableEq, Repr

/-- The machine after power-on reset (70_reset_and_hazards.md R134): every register field 0, both buffers
without a written byte, no transaction presented yet. -/
def State.reset : State where
  cmdOp := 0
  busy := false
  done := false
  err := 0
  busyWr := false
  irqEn := false
  ibufLen := 0
  obufLen := 0
  encCat := 0
  encFn := 0
  cksumResult := 0
  decKind := 0
  decCount := 0
  decField := #v[0, 0, 0, 0, 0, 0, 0, 0]
  mem := []
  inputs := []
  resp := .none
  epoch := 0

end Sys2Proof.Machine
end

