-- ==== Sys2Proof/Machine/Flags.lean ====
section
/-! DEFINITION. The STATUS register and the interrupt: the error codes (60_exceptions.md R119), the value
STATUS reads as (44_command_interface.md R112), its write-1-to-clear bits (10_state.md R22), IRQ (R36). -/
namespace Sys2Proof.Machine

/-- The error codes of a completed command (60_exceptions.md R119). -/
inductive ErrCode where
  | ok
  | truncated
  | payloadTooLarge
  | badCommand
  | badLength
deriving DecidableEq, Repr

/-- The value STATUS.ERR holds for an error code (60_exceptions.md R119). -/
def errBits : ErrCode → BitVec 4
  | .ok => 0
  | .truncated => 1
  | .payloadTooLarge => 2
  | .badCommand => 3
  | .badLength => 4

/-- `STATUS.ERR <- E` (60_exceptions.md R120). -/
def setErr (e : ErrCode) (s : State) : State := { s with err := errBits e }

/-- `STATUS.BUSY_WR <- 1`: the input lock dropped a write (10_state.md R21). -/
def markDropped (s : State) : State := { s with busyWr := true }

/-- The W1C write of STATUS (10_state.md R22): clear DONE, clear BUSY_WR, nothing else. -/
def clearStatusBits (doneClear busyWrClear : Bool) (s : State) : State :=
  { s with done := s.done && !doneClear, busyWr := s.busyWr && !busyWrClear }

/-- What STATUS reads as: `zext_32({BUSY_WR, ERR, 0b00, DONE, BUSY})` (44_command_interface.md R112). -/
def statusValue (s : State) : Word :=
  zext32 (BitVec.ofBool s.busyWr ++ s.err ++ 0#2 ++ BitVec.ofBool s.done ++ BitVec.ofBool s.busy)

/-- The interrupt output `IRQ = CTRL.IRQ_EN AND STATUS.DONE` (10_state.md R36, 60_exceptions.md R123). -/
def State.irq (s : State) : Bool := s.irqEn && s.done

end Sys2Proof.Machine
end

