-- ==== Sys2Proof/Machine/Operands.lean ====
section
/-! DEFINITION. The operand forms of host transactions: which location of the window an offset names
(10_state.md R16, 20_memory.md R39), and which accesses are legal (20_memory.md R40). -/
namespace Sys2Proof.Machine

/-- A location of the register window (10_state.md R16). -/
inductive Reg where
  | cmd
  | status
  | ctrl
  | ibufLen
  | obufLen
  | encCat
  | encFn
  | cksumResult
  | decKind
  | decCount
  /-- DEC_FIELDi, i = 0..7 -/
  | decField (i : Fin 8)
  /-- an offset that R16 does not list -/
  | reserved
deriving DecidableEq, Repr

/-- The register map: offset and register (10_state.md R16). -/
def registerMap : List (Offset × Reg) :=
  [(0x000, .cmd), (0x004, .status), (0x008, .ctrl), (0x00C, .ibufLen), (0x010, .obufLen),
   (0x014, .encCat), (0x018, .encFn), (0x01C, .cksumResult), (0x020, .decKind), (0x024, .decCount),
   (0x040, .decField 0), (0x044, .decField 1), (0x048, .decField 2), (0x04C, .decField 3),
   (0x050, .decField 4), (0x054, .decField 5), (0x058, .decField 6), (0x05C, .decField 7)]

/-- The register at an offset of the register window; an offset the map does not list is reserved
(10_state.md R16). -/
def regAt (addr : Offset) : Reg :=
  match registerMap.find? (fun p => p.1 == addr) with
  | some p => p.2
  | none => .reserved

/-- A region of the byte-wide part of the window (20_memory.md R39). -/
inductive Region where
  | ibuf
  | obuf
  | reserved
deriving DecidableEq, Repr

/-- The region of an offset of 0x400 or above (20_memory.md R39). -/
def regionAt (addr : Offset) : Region :=
  if 0x400 ≤ addr.toNat ∧ addr.toNat ≤ 0x5FF then .ibuf
  else if 0x800 ≤ addr.toNat ∧ addr.toNat ≤ 0x9FF then .obuf
  else .reserved

/-- A legal offset of a 4-byte access: in the register window and a multiple of 4 (20_memory.md R40). -/
def legalWordOffset (addr : Offset) : Bool :=
  decide (addr.toNat < 0x400) && decide (addr.toNat % 4 = 0)

/-- A legal offset of a 1-byte access: 0x400 or above (20_memory.md R40). -/
def legalByteOffset (addr : Offset) : Bool := decide (0x400 ≤ addr.toNat)

/-- A legal host transaction (20_memory.md R40). -/
def legalTransaction (t : Transaction) : Bool :=
  (t.width == 4 && legalWordOffset t.addr) || (t.width == 1 && legalByteOffset t.addr)

/-- Window offset of IBUF[i] (10_state.md R33). -/
def ibufOffset (i : Nat) : Nat := 0x400 + i

/-- Window offset of OBUF[i] (10_state.md R34). -/
def obufOffset (i : Nat) : Nat := 0x800 + i

end Sys2Proof.Machine
end

