-- ==== Sys2Proof/Machine/Ops.lean ====
section
/-! DEFINITION. The named operations over memory and registers: buffer bytes, register reads and writes, the
start and the completion of a command, `fail E`, the soft reset and the power-on reset. The block has no
trap to take and none to return from (60_exceptions.md R125, R126): `failWith` is how an error is recorded. -/
namespace Sys2Proof.Machine

/-- The byte listed at an offset, if one is. -/
def Memory.lookup : Memory → Nat → Option Byte
  | [], _ => none
  | (b, v) :: rest, a => if a = b then some v else Memory.lookup rest a

/-- Memory with the byte at an offset written; keeps the offsets rising. -/
def Memory.write : Memory → Nat → Byte → Memory
  | [], a, v => [(a, v)]
  | (b, w) :: rest, a, v =>
    if a < b then (a, v) :: (b, w) :: rest
    else if a = b then (a, v) :: rest
    else (b, w) :: Memory.write rest a v

/-- Memory with consecutive bytes written from an offset on, in order. -/
def Memory.writeBytes : Memory → Nat → List Byte → Memory
  | m, _, [] => m
  | m, a, v :: rest => Memory.writeBytes (Memory.write m a v) (a + 1) rest

/-- The buffer byte at a window offset: the byte last written there, or else the byte's free value since
power-on (10_state.md R33, R34; log 5). -/
def State.readByte (s : State) (a : Nat) : Byte :=
  (Memory.lookup s.mem a).getD (Config.powerOnByte s.epoch a)

/-- A buffer byte written at a window offset. -/
def State.writeByte (s : State) (a : Nat) (v : Byte) : State :=
  { s with mem := Memory.write s.mem a v }

/-- The byte sequence `IBUF[0..n-1]` (00_scope.md R11). -/
def State.ibuf (s : State) (n : Nat) : List Byte :=
  (List.range n).map fun i => s.readByte (ibufOffset i)

/-- The byte sequence `OBUF[0..n-1]` (00_scope.md R11). -/
def State.obuf (s : State) (n : Nat) : List Byte :=
  (List.range n).map fun i => s.readByte (obufOffset i)

/-- `for i: OBUF[i] <- f[i]` (41_frame_builder.md R82). -/
def State.writeObuf (s : State) (f : List Byte) : State :=
  { s with mem := Memory.writeBytes s.mem (obufOffset 0) f }

/-- The answer of the host port to a transaction (log 4). -/
def respond (r : Response) (s : State) : State := { s with resp := r }

/-- `cmd_start(op)` (44_command_interface.md R115). -/
def cmdStart (op : BitVec 3) (s : State) : State :=
  { s with cmdOp := op, busy := true, done := false, err := 0 }

/-- A write of an input register under the input lock: dropped and marked while BUSY, else done
(10_state.md R35, 70_reset_and_hazards.md R137). -/
def lockedWrite (write : State → State) (s : State) : State :=
  if s.busy then markDropped s else write s

/-- A CMD write whose operation is `op` (44_command_interface.md R111, case CMD). -/
def writeCmd (op : BitVec 3) (s : State) : State := lockedWrite (cmdStart op) s

/-- `soft_reset()` (70_reset_and_hazards.md R135): every register field at its power-on value, a pending
command discarded, both buffers kept. -/
def softReset (s : State) : State :=
  { State.reset with mem := s.mem, inputs := s.inputs, resp := s.resp, epoch := s.epoch }

/-- Power-on reset as an event (70_reset_and_hazards.md R134): the reset state, with every buffer byte a new
free value and the environment's later events kept (log 6). -/
def powerOnReset (s : State) : State :=
  { State.reset with inputs := s.inputs, epoch := s.epoch + 1 }

/-- `CTRL.IRQ_EN <- b` (10_state.md R23). -/
def setIrqEn (b : Bool) (s : State) : State := { s with irqEn := b }

/-- A CTRL write of word `w` (44_command_interface.md R111, case CTRL). -/
def writeCtrl (w : Word) (s : State) : State :=
  if w.getLsbD 31 then softReset s else setIrqEn (w.getLsbD 0) s

/-- `IBUF_LEN.LEN <- w[15:0]` (10_state.md R25). -/
def setIbufLen (n : BitVec 16) (s : State) : State := { s with ibufLen := n }

/-- `ENC_CAT.CAT <- w[7:0]` (10_state.md R27). -/
def setEncCat (v : Byte) (s : State) : State := { s with encCat := v }

/-- `ENC_FN.FN <- w[7:0]` (10_state.md R28). -/
def setEncFn (v : Byte) (s : State) : State := { s with encFn := v }

/-- `OBUF_LEN.LEN <- n` (41_frame_builder.md R82). -/
def setObufLen (n : BitVec 16) (s : State) : State := { s with obufLen := n }

/-- `CKSUM_RESULT.VALUE <- v` (40_checksum.md R77, 41_frame_builder.md R82). -/
def setCksumResult (v : Byte) (s : State) : State := { s with cksumResult := v }

/-- `DEC_KIND`, `DEC_COUNT` and all eight `DEC_FIELDi` (42_frame_parser.md R102): the values in slot order,
and 0 in the fields past them (10_state.md R32). -/
def setDecoded (kind : BitVec 4) (values : List Byte) (s : State) : State :=
  { s with
    decKind := kind
    decCount := BitVec.ofNat 4 values.length
    decField := #v[values.getD 0 0, values.getD 1 0, values.getD 2 0, values.getD 3 0,
                   values.getD 4 0, values.getD 5 0, values.getD 6 0, values.getD 7 0] }

/-- `fail E` (60_exceptions.md R120): ERR takes the code and the body ends. -/
def failWith (e : ErrCode) (s : State) : State := setErr e s

/-- The last two lines of the completion step: `BUSY <- 0`, `DONE <- 1` (44_command_interface.md R116). -/
def finish (s : State) : State := { s with busy := false, done := true }

/-- A write of word `w` to a register (44_command_interface.md R111). Read-only registers and reserved
offsets ignore it (20_memory.md R41). -/
def writeRegister (r : Reg) (w : Word) (s : State) : State :=
  match r with
  | .cmd => writeCmd (w.extractLsb' 0 3) s
  | .status => clearStatusBits (w.getLsbD 1) (w.getLsbD 8) s
  | .ctrl => writeCtrl w s
  | .ibufLen => lockedWrite (setIbufLen (w.extractLsb' 0 16)) s
  | .encCat => lockedWrite (setEncCat (w.extractLsb' 0 8)) s
  | .encFn => lockedWrite (setEncFn (w.extractLsb' 0 8)) s
  | .obufLen => s
  | .cksumResult => s
  | .decKind => s
  | .decCount => s
  | .decField _ => s
  | .reserved => s

/-- The value a register reads as (44_command_interface.md R112). -/
def readRegister (r : Reg) (s : State) : Word :=
  match r with
  | .cmd => zext32 s.cmdOp
  | .status => statusValue s
  | .ctrl => zext32 (BitVec.ofBool s.irqEn)
  | .ibufLen => zext32 s.ibufLen
  | .obufLen => zext32 s.obufLen
  | .encCat => zext32 s.encCat
  | .encFn => zext32 s.encFn
  | .cksumResult => zext32 s.cksumResult
  | .decKind => zext32 s.decKind
  | .decCount => zext32 s.decCount
  | .decField i => zext32 s.decField[i]
  | .reserved => 0

/-- A byte write at an offset of 0x400 or above (44_command_interface.md R113). -/
def writeWindowByte (addr : Offset) (v : Byte) (s : State) : State :=
  match regionAt addr with
  | .ibuf => lockedWrite (fun s => s.writeByte addr.toNat v) s
  | .obuf => s
  | .reserved => s

/-- The byte read at an offset of 0x400 or above (44_command_interface.md R114). -/
def readWindowByte (addr : Offset) (s : State) : Byte :=
  match regionAt addr with
  | .ibuf => s.readByte addr.toNat
  | .obuf => s.readByte addr.toNat
  | .reserved => 0

end Sys2Proof.Machine
end

