-- ==== Sys2Proof/Machine/Bus.lean ====
section
/-! DEFINITION. The host bus transactions sw, lw, sb, lb (44_command_interface.md R111 to R114). An operand
outside the window that the access form may reach is an illegal transaction: BusError, nothing changed
(20_memory.md R40, 60_exceptions.md R121). -/
namespace Sys2Proof.Machine

/-- sw (44_command_interface.md R111). -/
def execSw (addr : Offset) (w : Word) (s : State) : Host.Outcome State Fault Refusal :=
  if legalWordOffset addr then .next (respond .ack (writeRegister (regAt addr) w s))
  else .fault (.busError addr)

/-- lw (44_command_interface.md R112). -/
def execLw (addr : Offset) (s : State) : Host.Outcome State Fault Refusal :=
  if legalWordOffset addr then .next (respond (.word (readRegister (regAt addr) s)) s)
  else .fault (.busError addr)

/-- sb (44_command_interface.md R113). -/
def execSb (addr : Offset) (v : Byte) (s : State) : Host.Outcome State Fault Refusal :=
  if legalByteOffset addr then .next (respond .ack (writeWindowByte addr v s))
  else .fault (.busError addr)

/-- lb (44_command_interface.md R114). -/
def execLb (addr : Offset) (s : State) : Host.Outcome State Fault Refusal :=
  if legalByteOffset addr then .next (respond (.byte (readWindowByte addr s)) s)
  else .fault (.busError addr)

end Sys2Proof.Machine
end

