-- ==== Sys2Proof/WellFormed.lean ====
section
/-! DEFINITION. Which instructions have an encoding: the operand ranges of 30_encoding.md R69. -/
namespace Sys2Proof

/-- The offset lies in the register window (20_memory.md R39). -/
def Offset.inRegisterWindow (a : Offset) : Bool := decide (a.toNat < 0x400)

/-- The offset is a multiple of 4 (20_memory.md R40). -/
def Offset.wordAligned (a : Offset) : Bool := decide (a.toNat % 4 = 0)

/-- CMD, STATUS or CTRL: the registers whose write words have rows of their own in the table
(30_encoding.md R56, R57). -/
def Offset.hasOwnRows (a : Offset) : Bool := a == 0x000 || a == 0x004 || a == 0x008

/-- An instruction that some encoding stands for. `sw`, `lw`: an aligned offset of the register window, and
for `sw` none whose write word is another row's; `sb`, `lb`: an offset of 0x400 or above (30_encoding.md R69). -/
def Instr.wellFormed : Instr → Bool
  | .cksum _ => true
  | .encode _ => true
  | .decode _ => true
  | .reservedOp0 _ => true
  | .reservedOp4 _ => true
  | .reservedOp5 _ => true
  | .reservedOp6 _ => true
  | .reservedOp7 _ => true
  | .srst => true
  | .setCtrl _ => true
  | .clearStatus _ _ => true
  | .sw addr _ => Offset.inRegisterWindow addr && Offset.wordAligned addr && !Offset.hasOwnRows addr
  | .lw addr => Offset.inRegisterWindow addr && Offset.wordAligned addr
  | .sb addr _ => !Offset.inRegisterWindow addr
  | .lb addr => !Offset.inRegisterWindow addr
  | .frameLightStatus => true
  | .frameTimerAutoLight => true
  | .frameTimerAutoMusic => true
  | .frameTimerAlarm1 => true
  | .frameTimerAlarm2 => true
  | .frameTimerAlarm3 => true
  | .frameSpeakerVolume => true
  | .frameSpeakerEqualizer => true

end Sys2Proof
end

