-- ==== Sys2Proof/Decode.lean ====
section
/-! DEFINITION. The decoder, total on every code, and after it the encoder (30_encoding.md). -/
namespace Sys2Proof

/-- Category byte of a dispatch entry (30_encoding.md R59). -/
def Entry.category (c : Codes) : Entry → Byte
  | .lightStatus => Config.catLight
  | .timerAutoLight => c.catTimer
  | .timerAutoMusic => c.catTimer
  | .timerAlarm1 => c.catTimer
  | .timerAlarm2 => c.catTimer
  | .timerAlarm3 => c.catTimer
  | .speakerVolume => Config.catSpeaker
  | .speakerEqualizer => Config.catSpeaker

/-- Function byte of a dispatch entry (30_encoding.md R59). -/
def Entry.function (c : Codes) : Entry → Byte
  | .lightStatus => Config.fnLightStatus
  | .timerAutoLight => c.fnTimerAutoLight
  | .timerAutoMusic => c.fnTimerAutoMusic
  | .timerAlarm1 => c.fnTimerAlarm1
  | .timerAlarm2 => c.fnTimerAlarm2
  | .timerAlarm3 => c.fnTimerAlarm3
  | .speakerVolume => Config.fnSpeakerVolume
  | .speakerEqualizer => c.fnSpeakerEqualizer

/-- The dispatch key of a buffer: `key[15:8] = b[3]`, `key[7:0] = b[4]` (30_encoding.md R58). -/
def keyOf (category function : Byte) : BitVec 16 := category ++ function

/-- The dispatch key of an entry (30_encoding.md R59). -/
def Entry.key (c : Codes) (e : Entry) : BitVec 16 := keyOf (e.category c) (e.function c)

/-- The entry a key selects, by exact match under mask 0xFFFF (30_encoding.md R58). DEDUCED, log 11: the
two keys whose codes are fixed are tried first. Under a well-formed configuration at most one entry
matches, so the order has no effect (42_frame_parser.md R86). The function `Decode` of
Machine/Codec.lean keeps the table's order. -/
def decodeKey (c : Codes) (k : BitVec 16) : Option Entry :=
  if k = Entry.key c .lightStatus then some .lightStatus
  else if k = Entry.key c .speakerVolume then some .speakerVolume
  else if k = Entry.key c .timerAutoLight then some .timerAutoLight
  else if k = Entry.key c .timerAutoMusic then some .timerAutoMusic
  else if k = Entry.key c .timerAlarm1 then some .timerAlarm1
  else if k = Entry.key c .timerAlarm2 then some .timerAlarm2
  else if k = Entry.key c .timerAlarm3 then some .timerAlarm3
  else if k = Entry.key c .speakerEqualizer then some .speakerEqualizer
  else none

/-- The instruction of a dispatch entry (opcode_table.json, rows FRAME_*). -/
def Entry.instr : Entry → Instr
  | .lightStatus => .frameLightStatus
  | .timerAutoLight => .frameTimerAutoLight
  | .timerAutoMusic => .frameTimerAutoMusic
  | .timerAlarm1 => .frameTimerAlarm1
  | .timerAlarm2 => .frameTimerAlarm2
  | .timerAlarm3 => .frameTimerAlarm3
  | .speakerVolume => .frameSpeakerVolume
  | .speakerEqualizer => .frameSpeakerEqualizer

/-- The command an operation names (30_encoding.md R55). -/
def decodeOp (o : BitVec 3) (phase : Phase) : Instr :=
  if o = 0 then .reservedOp0 phase
  else if o = 1 then .cksum phase
  else if o = 2 then .encode phase
  else if o = 3 then .decode phase
  else if o = 4 then .reservedOp4 phase
  else if o = 5 then .reservedOp5 phase
  else if o = 6 then .reservedOp6 phase
  else .reservedOp7 phase

/-- A CMD write word: `w[2:0]` = OP, `w[31:3]` is ignored (30_encoding.md R56). -/
def decodeCmdWord (w : Word) : Instr := decodeOp (w.extractLsb' 0 3) .start

/-- A CTRL write word: bit 31 is SRST, bit 0 is IRQ_EN, the others are ignored, and with SRST so is bit 0
(30_encoding.md R57, 10_state.md R24). -/
def decodeCtrlWord (w : Word) : Instr :=
  if w.getLsbD 31 then .srst else .setCtrl (w.getLsbD 0)

/-- A STATUS write word: bit 1 clears DONE, bit 8 clears BUSY_WR, the others are ignored
(30_encoding.md R57, 10_state.md R22). -/
def decodeStatusWord (w : Word) : Instr := .clearStatus (w.getLsbD 1) (w.getLsbD 8)

/-- A legal 4-byte write to the register window (30_encoding.md R69): the words written to CMD, STATUS and
CTRL are rows of their own (log 13). -/
def decodeRegisterWrite (addr : Offset) (w : Word) : Instr :=
  if addr = 0x000 then decodeCmdWord w
  else if addr = 0x004 then decodeStatusWord w
  else if addr = 0x008 then decodeCtrlWord w
  else .sw addr w

/-- A host transaction: the two legal cases of 20_memory.md R40, in each direction (30_encoding.md R69);
every other transaction is rejected. -/
def decodeTransaction (t : Transaction) : Except DecodeError Instr :=
  if t.addr.toNat < 0x400 then
    if t.width ≠ 4 then .error (.registerWidth t.addr)
    else if t.addr.toNat % 4 ≠ 0 then .error (.misaligned t.addr)
    else match t.dir with
      | .read => .ok (.lw t.addr)
      | .write => .ok (decodeRegisterWrite t.addr t.data)
  else if t.width ≠ 1 then .error (.bufferWidth t.addr)
  else match t.dir with
    | .read => .ok (.lb t.addr)
    | .write => .ok (.sb t.addr (t.data.extractLsb' 0 8))

/-- The decoder, total on every code. -/
def decode : Code → Except DecodeError Instr
  | .tx t => decodeTransaction t
  | .op o => .ok (decodeOp o .complete)
  | .key k =>
    match decodeKey Config.codes k with
    | some e => .ok e.instr
    | none => .error (.unknownKey k)

/-- The code of one of the two steps of the command with operation `o`: the CMD write word `o`, its
ignored bits zero, or the operation latched in CMD.OP (30_encoding.md R55, R56). -/
def encodeCommand (o : BitVec 3) : Phase → Code
  | .start => .tx ⟨.write, 4, 0x000, o.setWidth 32⟩
  | .complete => .op o

/-- A STATUS word with the given clear bits, its ignored bits zero (30_encoding.md R57). -/
def statusWord (doneClear busyWrClear : Bool) : Word :=
  (if doneClear then 0x00000002 else 0) ||| (if busyWrClear then 0x00000100 else 0)

/-- The code of an instruction, its ignored bits zero (30_encoding.md R55 to R59, R69). -/
def encode : Instr → Code
  | .cksum p => encodeCommand 1 p
  | .encode p => encodeCommand 2 p
  | .decode p => encodeCommand 3 p
  | .reservedOp0 p => encodeCommand 0 p
  | .reservedOp4 p => encodeCommand 4 p
  | .reservedOp5 p => encodeCommand 5 p
  | .reservedOp6 p => encodeCommand 6 p
  | .reservedOp7 p => encodeCommand 7 p
  | .srst => .tx ⟨.write, 4, 0x008, 0x80000000⟩
  | .setCtrl irqEn => .tx ⟨.write, 4, 0x008, if irqEn then 0x00000001 else 0x00000000⟩
  | .clearStatus d b => .tx ⟨.write, 4, 0x004, statusWord d b⟩
  | .sw addr w => .tx ⟨.write, 4, addr, w⟩
  | .lw addr => .tx ⟨.read, 4, addr, 0⟩
  | .sb addr v => .tx ⟨.write, 1, addr, zext32 v⟩
  | .lb addr => .tx ⟨.read, 1, addr, 0⟩
  | .frameLightStatus => .key (Entry.key Config.codes .lightStatus)
  | .frameTimerAutoLight => .key (Entry.key Config.codes .timerAutoLight)
  | .frameTimerAutoMusic => .key (Entry.key Config.codes .timerAutoMusic)
  | .frameTimerAlarm1 => .key (Entry.key Config.codes .timerAlarm1)
  | .frameTimerAlarm2 => .key (Entry.key Config.codes .timerAlarm2)
  | .frameTimerAlarm3 => .key (Entry.key Config.codes .timerAlarm3)
  | .frameSpeakerVolume => .key (Entry.key Config.codes .speakerVolume)
  | .frameSpeakerEqualizer => .key (Entry.key Config.codes .speakerEqualizer)

/-- The code that a bit pattern of spec/opcode_table.json stands for, found from how many bits the table
gives the row (DESIGN CHOICE, log 12): the CMD rows fix bits 2:0 (8 bits), the CTRL rows bit 31 (32
bits), the dispatch rows bits 15:0 (16 bits), and the STATUS row fixes no bit. -/
def tableCode (nbits w : Nat) : Option Code :=
  if nbits = 8 then some (.tx ⟨.write, 4, 0x000, BitVec.ofNat 32 w⟩)
  else if nbits = 16 then some (.key (BitVec.ofNat 16 w))
  else if nbits = 32 then some (.tx ⟨.write, 4, 0x008, BitVec.ofNat 32 w⟩)
  else if nbits = 0 then some (.tx ⟨.write, 4, 0x004, BitVec.ofNat 32 w⟩)
  else none

/-- The instruction the decoder reads from an opcode-table word of `nbits` bits; none where it refuses. -/
def decodeTableWord (nbits w : Nat) : Option Instr :=
  match tableCode nbits w with
  | some code => (decode code).toOption
  | none => none

end Sys2Proof
end

