-- ==== Sys2Proof/Machine/Codec.lean ====
section
/-! DEFINITION. The three pure functions of the wire codec, `Checksum`, `Encode` and `Decode`, and the five
field extractors (40_checksum.md, 41_frame_builder.md, 42_frame_parser.md, 43_field_extractors.md).
`Decode` takes the codes as an argument (00_scope.md R6). -/
namespace Sys2Proof.Machine

/-- `sum(s)`: the sum of a byte sequence as an unbounded number (00_scope.md R9). -/
def byteSum (s : List Byte) : Nat := (s.map BitVec.toNat).sum

/-- `Checksum(s)` (40_checksum.md R72): `((256 * n) - (sum + 1)) emod 256`, on unbounded integers with the
non-negative remainder of 00_scope.md R10. -/
def checksum (s : List Byte) : Byte :=
  let n : Int := s.length
  let hexSum : Int := byteSum s + 1
  BitVec.ofInt 8 ((256 * n - hexSum) % 256)

/-- The first five bytes of a frame: HDR0, HDR1, dataLength, category, function (30_encoding.md R52). -/
def frameHeader (cat fn : Byte) (len : Nat) : List Byte :=
  [Config.hdr0, Config.hdr1, BitVec.ofNat 8 len, cat, fn]

/-- `Encode(cat, fn, p)` (41_frame_builder.md R78). It has no value for a payload over MAX_PAYLOAD bytes
(R80). -/
def encodeFrame (cat fn : Byte) (p : List Byte) : Option (List Byte) :=
  if p.length ≤ Config.maxPayload then
    let h := frameHeader cat fn p.length ++ p
    some (h ++ [checksum h])
  else none

/-- The source's `data` argument: nothing, a single byte or a sequence (41_frame_builder.md R79). -/
inductive Payload where
  | nothing
  | single (b : Byte)
  | sequence (p : List Byte)
deriving DecidableEq, Repr

/-- The payload bytes of a `data` argument (41_frame_builder.md R79). -/
def payloadBytes : Payload → List Byte
  | .nothing => []
  | .single b => [b]
  | .sequence p => p

/-- `encodeMessage(cat, fn, data)` (41_frame_builder.md R79). -/
def encodeMessage (cat fn : Byte) (data : Payload) : Option (List Byte) :=
  encodeFrame cat fn (payloadBytes data)

/-- The frame kinds, one for each extractor (30_encoding.md R60). -/
inductive Kind where
  | lightStatus
  | timerAuto
  | timerAlarm
  | speakerVolume
  | speakerEqualizer
deriving DecidableEq, Repr

/-- The DEC_KIND code of a frame kind (30_encoding.md R60); 0 is NONE. -/
def kindCode : Kind → BitVec 4
  | .lightStatus => 1
  | .timerAuto => 2
  | .timerAlarm => 3
  | .speakerVolume => 4
  | .speakerEqualizer => 5

/-- The frame offsets an extractor reads, in slot order (30_encoding.md R61 to R65). -/
def kindOffsets : Kind → List Nat
  | .lightStatus => [5, 6, 7, 8, 9, 10, 11, 12]
  | .timerAuto => [4, 5, 6, 7, 8, 9]
  | .timerAlarm => [4, 11, 12, 14]
  | .speakerVolume => [5]
  | .speakerEqualizer => [5, 6, 7, 8, 9]

/-- The minimum buffer length of an extractor (30_encoding.md R59, R66). -/
def kindMinLen : Kind → Nat
  | .lightStatus => 13
  | .timerAuto => 10
  | .timerAlarm => 15
  | .speakerVolume => 6
  | .speakerEqualizer => 10

/-- `b[i]`. The spec reads no offset out of range (00_scope.md R9, 43_field_extractors.md R103); the 0 this
gives there is never used. -/
def byteAt (b : List Byte) (i : Nat) : Byte := b.getD i 0

/-- `Extract(b)`: the bytes at the kind's offsets, in slot order (43_field_extractors.md R103 to R108). -/
def extract (k : Kind) (b : List Byte) : List Byte := (kindOffsets k).map (byteAt b)

/-- The extractor's kind of a dispatch entry (30_encoding.md R59). -/
def entryKind : Entry → Kind
  | .lightStatus => .lightStatus
  | .timerAutoLight => .timerAuto
  | .timerAutoMusic => .timerAuto
  | .timerAlarm1 => .timerAlarm
  | .timerAlarm2 => .timerAlarm
  | .timerAlarm3 => .timerAlarm
  | .speakerVolume => .speakerVolume
  | .speakerEqualizer => .speakerEqualizer

/-- The dispatch table's entries in its order, 1 to 8 (30_encoding.md R59). -/
def dispatchTable : List Entry :=
  [.lightStatus, .timerAutoLight, .timerAutoMusic, .timerAlarm1, .timerAlarm2, .timerAlarm3,
   .speakerVolume, .speakerEqualizer]

/-- The first entry, in table order, whose (category, function) is the given pair (42_frame_parser.md R86). -/
def dispatch (c : Codes) (cat fn : Byte) : Option Entry :=
  dispatchTable.find? fun e => decide (cat = e.category c) && decide (fn = e.function c)

/-- The result of `Decode` (00_scope.md R12). -/
inductive DecodeResult where
  | empty
  | truncated
  | fields (kind : Kind) (values : List Byte)
deriving DecidableEq, Repr

/-- The arm of a matched entry: `Truncated` below its minimum length, else its fields (42_frame_parser.md
R88, R89). -/
def entryResult (e : Entry) (b : List Byte) : DecodeResult :=
  if b.length < kindMinLen (entryKind e) then .truncated
  else .fields (entryKind e) (extract (entryKind e) b)

/-- `Decode(b)` for an absent buffer (none) or a byte sequence (42_frame_parser.md R83). -/
def decodeFrame (c : Codes) : Option (List Byte) → DecodeResult
  | none => .empty
  | some b =>
    if b.length < 1 then .empty
    else if b.length < Config.hdrLen then .truncated
    else match dispatch c (byteAt b 3) (byteAt b 4) with
      | some e => entryResult e b
      | none => .empty

end Sys2Proof.Machine
end

