-- ==== Sys2Proof/Machine/Commands.lean ====
section
/-! DEFINITION. The commands of the CMD register: CKSUM, ENCODE, DECODE and the reserved operations
(40_checksum.md R77, 41_frame_builder.md R82, 42_frame_parser.md R102, 44_command_interface.md R118). Each has
two steps: the CMD write and the engine's completion step (log 9). -/
namespace Sys2Proof.Machine

/-- `LEN > BUF_SIZE`: the check every command makes first (44_command_interface.md R117). -/
def badLength (s : State) : Bool := decide (s.ibufLen.toNat > Config.bufSize)

/-- The byte sequence a command reads: `IBUF[0..LEN-1]` (44_command_interface.md R117). -/
def inputBytes (s : State) : List Byte := s.ibuf s.ibufLen.toNat

/-- The body of CKSUM (40_checksum.md R77). -/
def cksumBody (s : State) : State :=
  let s0 := setCksumResult 0 s
  if badLength s then failWith .badLength s0
  else setErr .ok (setCksumResult (checksum (inputBytes s)) s0)

/-- The body of ENCODE (41_frame_builder.md R82). -/
def encodeBody (s : State) : State :=
  let s0 := setCksumResult 0 (setObufLen 0 s)
  if badLength s then failWith .badLength s0
  else match encodeFrame s.encCat s.encFn (inputBytes s) with
    | none => failWith .payloadTooLarge s0
    | some f =>
      setErr .ok (setCksumResult (byteAt f (s.ibufLen.toNat + 5))
        (setObufLen (BitVec.ofNat 16 (s.ibufLen.toNat + 6)) (s0.writeObuf f)))

/-- What DECODE writes for a result (42_frame_parser.md R102), after its defaults. -/
def writeResult (r : DecodeResult) (s : State) : State :=
  match r with
  | .empty => setErr .ok s
  | .truncated => failWith .truncated s
  | .fields k values => setErr .ok (setDecoded (kindCode k) values s)

/-- The body of DECODE (42_frame_parser.md R102), for a function that decodes the buffer. -/
def decodeBody (parse : List Byte → DecodeResult) (s : State) : State :=
  let s0 := setDecoded 0 [] s
  if badLength s then failWith .badLength s0 else writeResult (parse (inputBytes s)) s0

/-- The reserved body (44_command_interface.md R118). -/
def reservedBody (s : State) : State := failWith .badCommand s

/-- The engine's completion step of the command with operation `op` (44_command_interface.md R116). Enabled
exactly when that command is pending; a step that is not enabled changes nothing (log 3). -/
def completeCommand (op : BitVec 3) (body : State → State) (s : State) : State :=
  if s.busy = true ∧ s.cmdOp = op then finish (body s) else s

/-- The two steps of the command with operation `op` (44_command_interface.md R115, R116). -/
def commandStep (op : BitVec 3) (body : State → State) (phase : Phase) (s : State) : State :=
  match phase with
  | .start => respond .ack (writeCmd op s)
  | .complete => completeCommand op body s

/-- CKSUM (40_checksum.md R77). -/
def execCksum (phase : Phase) (s : State) : Host.Outcome State Fault Refusal :=
  .next (commandStep 1 cksumBody phase s)

/-- ENCODE (41_frame_builder.md R82). -/
def execEncode (phase : Phase) (s : State) : Host.Outcome State Fault Refusal :=
  .next (commandStep 2 encodeBody phase s)

/-- DECODE (42_frame_parser.md R102). -/
def execDecode (phase : Phase) (s : State) : Host.Outcome State Fault Refusal :=
  .next (commandStep 3 (decodeBody fun b => decodeFrame Config.codes (some b)) phase s)

/-- RESERVED_OP0 (44_command_interface.md R118). -/
def execReservedOp0 (phase : Phase) (s : State) : Host.Outcome State Fault Refusal :=
  .next (commandStep 0 reservedBody phase s)

/-- RESERVED_OP4 (44_command_interface.md R118). -/
def execReservedOp4 (phase : Phase) (s : State) : Host.Outcome State Fault Refusal :=
  .next (commandStep 4 reservedBody phase s)

/-- RESERVED_OP5 (44_command_interface.md R118). -/
def execReservedOp5 (phase : Phase) (s : State) : Host.Outcome State Fault Refusal :=
  .next (commandStep 5 reservedBody phase s)

/-- RESERVED_OP6 (44_command_interface.md R118). -/
def execReservedOp6 (phase : Phase) (s : State) : Host.Outcome State Fault Refusal :=
  .next (commandStep 6 reservedBody phase s)

/-- RESERVED_OP7 (44_command_interface.md R118). -/
def execReservedOp7 (phase : Phase) (s : State) : Host.Outcome State Fault Refusal :=
  .next (commandStep 7 reservedBody phase s)

end Sys2Proof.Machine
end

