-- ==== Sys2Proof/Machine/Control.lean ====
section
/-! DEFINITION. The words written to CTRL and STATUS: SRST, SET_CTRL, CLEAR_STATUS (10_state.md R22, R23, R24;
70_reset_and_hazards.md R135). The block accepts them whether or not it is busy. -/
namespace Sys2Proof.Machine

/-- SRST: the soft reset (70_reset_and_hazards.md R135). -/
def execSrst (s : State) : Host.Outcome State Fault Refusal :=
  .next (respond .ack (softReset s))

/-- SET_CTRL: `CTRL.IRQ_EN <- w[0]` (10_state.md R23, R24). -/
def execSetCtrl (irqEn : Bool) (s : State) : Host.Outcome State Fault Refusal :=
  .next (respond .ack (setIrqEn irqEn s))

/-- CLEAR_STATUS: clears DONE and BUSY_WR where the written bit is 1 (10_state.md R22). -/
def execClearStatus (doneClear busyWrClear : Bool) (s : State) : Host.Outcome State Fault Refusal :=
  .next (respond .ack (clearStatusBits doneClear busyWrClear s))

end Sys2Proof.Machine
end

