-- ==== Sys2Proof/Machine/Frames.lean ====
section
/-! DEFINITION. The dispatch entries: the completion step of a pending DECODE whose buffer has the entry's key
(42_frame_parser.md R94 to R102; log 10). -/
namespace Sys2Proof.Machine

/-- The dispatch key of the pending DECODE's buffer, `{IBUF[3], IBUF[4]}` (30_encoding.md R58). -/
def inputKey (s : State) : BitVec 16 := keyOf (s.readByte (ibufOffset 3)) (s.readByte (ibufOffset 4))

/-- A DECODE is pending that reads a dispatch key: BUSY = 1, CMD.OP = 3, and LEN is neither above BUF_SIZE nor
below 5 (42_frame_parser.md R83, R102). -/
def readsKey (s : State) : Bool :=
  s.busy && s.cmdOp == 3 && !badLength s && decide (Config.hdrLen ≤ s.ibufLen.toNat)

/-- The completion step of a DECODE dispatched to entry `e`. Enabled exactly when a pending DECODE reads the
entry's key; a step that is not enabled changes nothing (log 3). -/
def completeFrame (e : Entry) (s : State) : State :=
  if readsKey s = true ∧ inputKey s = e.key Config.codes then finish (decodeBody (entryResult e) s)
  else s

/-- FRAME_LIGHT_STATUS, entry 1 (42_frame_parser.md R94). -/
def execFrameLightStatus (s : State) : Host.Outcome State Fault Refusal :=
  .next (completeFrame .lightStatus s)

/-- FRAME_TIMER_AUTO_LIGHT, entry 2 (42_frame_parser.md R95). -/
def execFrameTimerAutoLight (s : State) : Host.Outcome State Fault Refusal :=
  .next (completeFrame .timerAutoLight s)

/-- FRAME_TIMER_AUTO_MUSIC, entry 3 (42_frame_parser.md R96). -/
def execFrameTimerAutoMusic (s : State) : Host.Outcome State Fault Refusal :=
  .next (completeFrame .timerAutoMusic s)

/-- FRAME_TIMER_ALARM_1, entry 4 (42_frame_parser.md R97). -/
def execFrameTimerAlarm1 (s : State) : Host.Outcome State Fault Refusal :=
  .next (completeFrame .timerAlarm1 s)

/-- FRAME_TIMER_ALARM_2, entry 5 (42_frame_parser.md R98). -/
def execFrameTimerAlarm2 (s : State) : Host.Outcome State Fault Refusal :=
  .next (completeFrame .timerAlarm2 s)

/-- FRAME_TIMER_ALARM_3, entry 6 (42_frame_parser.md R99). -/
def execFrameTimerAlarm3 (s : State) : Host.Outcome State Fault Refusal :=
  .next (completeFrame .timerAlarm3 s)

/-- FRAME_SPEAKER_VOLUME, entry 7 (42_frame_parser.md R100). -/
def execFrameSpeakerVolume (s : State) : Host.Outcome State Fault Refusal :=
  .next (completeFrame .speakerVolume s)

/-- FRAME_SPEAKER_EQUALIZER, entry 8 (42_frame_parser.md R101). -/
def execFrameSpeakerEqualizer (s : State) : Host.Outcome State Fault Refusal :=
  .next (completeFrame .speakerEqualizer s)

end Sys2Proof.Machine
end

