-- ==== Sys2Proof/Machine/Dispatch.lean ====
section
/-! DEFINITION. The one match over Instr: each arm calls its instruction's meaning. -/
namespace Sys2Proof.Machine

/-- The meaning of an instruction. -/
def exec (i : Instr) (s : State) : Host.Outcome State Fault Refusal :=
  match i with
  | .cksum phase => Sys2Proof.Machine.execCksum phase s
  | .encode phase => Sys2Proof.Machine.execEncode phase s
  | .decode phase => Sys2Proof.Machine.execDecode phase s
  | .reservedOp0 phase => Sys2Proof.Machine.execReservedOp0 phase s
  | .reservedOp4 phase => Sys2Proof.Machine.execReservedOp4 phase s
  | .reservedOp5 phase => Sys2Proof.Machine.execReservedOp5 phase s
  | .reservedOp6 phase => Sys2Proof.Machine.execReservedOp6 phase s
  | .reservedOp7 phase => Sys2Proof.Machine.execReservedOp7 phase s
  | .srst => Sys2Proof.Machine.execSrst s
  | .setCtrl irqEn => Sys2Proof.Machine.execSetCtrl irqEn s
  | .clearStatus doneClear busyWrClear => Sys2Proof.Machine.execClearStatus doneClear busyWrClear s
  | .sw addr w => Sys2Proof.Machine.execSw addr w s
  | .lw addr => Sys2Proof.Machine.execLw addr s
  | .sb addr v => Sys2Proof.Machine.execSb addr v s
  | .lb addr => Sys2Proof.Machine.execLb addr s
  | .frameLightStatus => Sys2Proof.Machine.execFrameLightStatus s
  | .frameTimerAutoLight => Sys2Proof.Machine.execFrameTimerAutoLight s
  | .frameTimerAutoMusic => Sys2Proof.Machine.execFrameTimerAutoMusic s
  | .frameTimerAlarm1 => Sys2Proof.Machine.execFrameTimerAlarm1 s
  | .frameTimerAlarm2 => Sys2Proof.Machine.execFrameTimerAlarm2 s
  | .frameTimerAlarm3 => Sys2Proof.Machine.execFrameTimerAlarm3 s
  | .frameSpeakerVolume => Sys2Proof.Machine.execFrameSpeakerVolume s
  | .frameSpeakerEqualizer => Sys2Proof.Machine.execFrameSpeakerEqualizer s

end Sys2Proof.Machine
end

