-- ==== Sys2Proof/Machine/Fetch.lean ====
section
/-! DEFINITION. What happens next: the head of the agenda, and the code it presents (44_command_interface.md
R110, 20_memory.md R47; log 1, log 2); and how a code is placed where the next step finds it. -/
namespace Sys2Proof.Machine

/-- The code the engine's completion step decodes: the dispatch key, when a pending DECODE reads one that has
an entry, else the latched operation (44_command_interface.md R116, 42_frame_parser.md R83). -/
def engineCode (s : State) : Code :=
  if readsKey s = true ∧ (decodeKey Config.codes (inputKey s)).isSome = true then .key (inputKey s)
  else .op s.cmdOp

/-- What a step finds to do. -/
inductive Fetched where
  /-- nothing: no transaction is presented and the engine is not enabled -/
  | idle
  /-- power goes off and on -/
  | powerOn
  /-- a code to decode and run -/
  | run (code : Code)
deriving DecidableEq, Repr

/-- The engine's part of the fetch: its step is enabled exactly when BUSY = 1 (44_command_interface.md R116). -/
def fetchedEngine (s : State) : Fetched := if s.busy then .run (engineCode s) else .idle

/-- What the next step does: the first event of the agenda; with an empty agenda the engine's step if it is
enabled (70_reset_and_hazards.md R143: an engine step that stays enabled is eventually taken; log 2). -/
def fetched (s : State) : Fetched :=
  match s.inputs with
  | [] => fetchedEngine s
  | .host t :: _ => .run (.tx t)
  | .engine :: _ => fetchedEngine s
  | .powerOn :: _ => .powerOn

/-- The state with the first event of the agenda taken off. -/
def consume (s : State) : State := { s with inputs := s.inputs.tail }

/-- The outcome of a code that decodes to no instruction: BusError for an illegal transaction
(60_exceptions.md R121). -/
def rejected : DecodeError → Host.Outcome State Fault Refusal
  | .registerWidth addr => .fault (.busError addr)
  | .misaligned addr => .fault (.busError addr)
  | .bufferWidth addr => .fault (.busError addr)
  | .unknownKey k => .refused (.unknownKey k)

/-- A transaction presented as the next event. -/
def presentTransaction (t : Transaction) (s : State) : State := { s with inputs := .host t :: s.inputs }

/-- A command with operation `op` pending and the engine's step as the next event (44_command_interface.md
R115). -/
def presentOp (op : BitVec 3) (s : State) : State :=
  { cmdStart op s with inputs := .engine :: s.inputs }

/-- A DECODE pending on a buffer of 15 bytes (the longest minimum length, 30_encoding.md R66) whose bytes 3 and
4 are the key and whose bytes 5 to 14 are 0. -/
def presentKey (k : BitVec 16) (s : State) : State :=
  { presentOp 3 s with
    ibufLen := 15
    mem := Memory.writeBytes s.mem (ibufOffset 3)
      [k.extractLsb' 8 8, k.extractLsb' 0 8, 0, 0, 0, 0, 0, 0, 0, 0, 0, 0] }

/-- A code placed where the next step finds it. -/
def presentCode (code : Code) (s : State) : State :=
  match code with
  | .tx t => presentTransaction t s
  | .op o => presentOp o s
  | .key k => presentKey k s

end Sys2Proof.Machine
end

