-- ==== Sys2Proof/Machine/Step.lean ====
section
/-! DEFINITION. One step of the machine: fetch, decode, run. -/
namespace Sys2Proof.Machine

/-- One step: the next event of the agenda. An idle block changes nothing (60_exceptions.md R133). -/
def step (s : State) : Host.Outcome State Fault Refusal :=
  match fetched s with
  | .idle => .next (consume s)
  | .powerOn => .next (powerOnReset (consume s))
  | .run code =>
    match decode code with
    | .ok i => exec i (consume s)
    | .error e => rejected e

/-- The state in which the very next step runs the instruction of an opcode-table word: a register-write word is
presented as the host's next transaction; a dispatch key is placed in the buffer of a pending DECODE whose
completion step comes next. It stands for the environment, which chooses every transaction (log 1). -/
def State.withFetchWord (s : State) (nbits w : Nat) : State :=
  match tableCode nbits w with
  | some code => presentCode code s
  | none => s

end Sys2Proof.Machine
end

