-- ==== Sys2Proof/Safety.lean ====
section
/-! DEFINITION. What claims call a good state and a legal agenda: the invariants of 10_state.md R37 and the
legality of the environment's transactions (20_memory.md R40). -/
namespace Sys2Proof.Machine

/-- The field count of each frame kind; 0 for NONE (10_state.md R31). None for a code R30 never writes. -/
def fieldCount (kind : BitVec 4) : Option (BitVec 4) :=
  if kind = 0 then some 0
  else if kind = 1 then some 8
  else if kind = 2 then some 6
  else if kind = 3 then some 4
  else if kind = 4 then some 1
  else if kind = 5 then some 5
  else none

/-- The frame that OBUF_LEN claims to be in OBUF is one (10_state.md R37, point 7). -/
def obufHoldsFrame (s : State) : Prop :=
  s.obufLen ≠ 0 →
    s.readByte (obufOffset 0) = 0x55 ∧ s.readByte (obufOffset 1) = 0xAA ∧
    (s.readByte (obufOffset 2)).toNat = s.obufLen.toNat - 6 ∧
    s.readByte (obufOffset (s.obufLen.toNat - 1)) = checksum (s.obuf (s.obufLen.toNat - 1))

/-- The seven invariants of every reachable state (10_state.md R37), and the canonical form of memory (log 5). -/
structure Inv (s : State) : Prop where
  /-- point 1 -/
  busyClearsDoneAndErr : s.busy = true → s.done = false ∧ s.err = 0
  /-- point 2 -/
  errCode : s.err.toNat ≤ 4
  /-- point 3 -/
  noneIffNoField : s.decKind = 0 ↔ s.decCount = 0
  /-- point 4 -/
  countOfKind : fieldCount s.decKind = some s.decCount
  /-- point 5 -/
  unusedFieldsZero : ∀ i : Fin 8, s.decCount.toNat ≤ i.val → s.decField[i] = 0
  /-- point 6 -/
  obufLenRange : s.obufLen = 0 ∨ (6 ≤ s.obufLen.toNat ∧ s.obufLen.toNat ≤ 261)
  /-- point 7 -/
  obufFrame : obufHoldsFrame s
  /-- the model's own: memory is in its canonical form -/
  memoryCanonical : Memory.wf s.mem

/-- The environment presents no illegal transaction (20_memory.md R40). -/
def inputsLegal (s : State) : Bool :=
  s.inputs.all fun e => match e with
    | .host t => legalTransaction t
    | .engine => true
    | .powerOn => true

end Sys2Proof.Machine
end

