-- ==== Sys2Proof/Certificates/Slice0/Obligations.lean ====
section
/-! DEFINITION. The statements for the provers, by section of the spec. `resp`, `inputs` and `epoch` are the
model's own fields (log 1, log 4, log 6); a result written as a state says of every other field that it is
unchanged. -/
open Sys2Proof Sys2Proof.Machine

/-! ### Encodings (30_encoding.md) -/

/-- 30_encoding.md R55 to R59, R69: decoding what the encoder writes gives the instruction back. The codes
of commands and of frame rows, and that the words of CMD, STATUS and CTRL are rows of their own, are the
model's reading (log 9, log 10, log 13). -/
def Obligations.DecodeInvertsEncode : Prop :=
  ∀ i : Instr, i.wellFormed = true → decode (encode i) = .ok i

/-- 30_encoding.md R69, 20_memory.md R40: the decoder answers only instructions whose operands lie in the
window their form may reach. That `sw` is never answered at CMD, STATUS or CTRL, whose words are rows of
their own, is the model's reading (log 13). -/
def Obligations.DecodedInstructionIsWellFormed : Prop :=
  ∀ (code : Code) (i : Instr), decode code = .ok i → i.wellFormed = true

/-- 30_encoding.md R56 with the values of R55: bits 2:0 alone select the command of a CMD word, and every
32-bit value is one. That the write decodes to the row of its word, as that row's start phase, is the
model's reading (log 9, log 13). -/
def Obligations.CmdWordSelectsByItsLowThreeBits : Prop :=
  ∀ w : Word, decode (.tx ⟨.write, 4, 0x000, w⟩) = .ok
    (if w.toNat % 8 = 1 then .cksum .start
     else if w.toNat % 8 = 2 then .encode .start
     else if w.toNat % 8 = 3 then .decode .start
     else if w.toNat % 8 = 0 then .reservedOp0 .start
     else if w.toNat % 8 = 4 then .reservedOp4 .start
     else if w.toNat % 8 = 5 then .reservedOp5 .start
     else if w.toNat % 8 = 6 then .reservedOp6 .start
     else .reservedOp7 .start)

/-- 30_encoding.md R57: the two meaningful bits of a STATUS word and of a CTRL word; the others are ignored,
and bit 0 of a CTRL word with bit 31 set is ignored too. That these writes decode to rows of their own and
not to `sw` is the model's reading (log 13). -/
def Obligations.StatusAndCtrlWordsHaveTwoMeaningfulBits : Prop :=
  ∀ w : Word,
    decode (.tx ⟨.write, 4, 0x004, w⟩) =
      .ok (.clearStatus (decide (w.toNat / 2 % 2 = 1)) (decide (w.toNat / 256 % 2 = 1))) ∧
    decode (.tx ⟨.write, 4, 0x008, w⟩) =
      .ok (if 2 ^ 31 ≤ w.toNat then .srst else .setCtrl (decide (w.toNat % 2 = 1)))

/-- 30_encoding.md R58, R59: under a well-formed configuration a key selects an entry exactly when it is that
entry's key, and that is the entry the table order dispatches to (42_frame_parser.md R86; log 11). -/
def Obligations.KeyDecoderMatchesTableOrder : Prop :=
  ∀ c : Codes, c.WellFormed →
    (∀ k e, decodeKey c k = some e ↔ k = e.key c) ∧
    (∀ cat fn, decodeKey c (keyOf cat fn) = dispatch c cat fn)

/-- 42_frame_parser.md R86: the first entry, in the order 1 to 8, whose pair is the buffer's is taken; under
a well-formed configuration at most one entry has that pair. -/
def Obligations.FirstMatchingEntryIsTaken : Prop :=
  dispatchTable = [.lightStatus, .timerAutoLight, .timerAutoMusic, .timerAlarm1, .timerAlarm2, .timerAlarm3,
    .speakerVolume, .speakerEqualizer] ∧
  (∀ (c : Codes) (cat fn : Byte) (e : Entry), dispatch c cat fn = some e ↔
    ∃ before after, dispatchTable = before ++ e :: after ∧ cat = e.category c ∧ fn = e.function c ∧
      ∀ e' ∈ before, ¬(cat = e'.category c ∧ fn = e'.function c)) ∧
  (∀ c : Codes, c.WellFormed → ∀ e e' : Entry,
    e.category c = e'.category c → e.function c = e'.function c → e = e')

/-- Words written out from 30_encoding.md R55, R57, R59 and R69 decode to the instructions they stand for.
The words are the spec's; that the CMD word is a start and operation 2 a completion (log 9), that the keys
are instructions (log 10) and that the CMD, STATUS and CTRL words are rows of their own (log 13) is the
model's reading. -/
def Obligations.SpecWordsDecodeToTheirInstructions : Prop :=
  decode (.tx ⟨.write, 4, 0x000, 0xFFFFFFF9⟩) = .ok (.cksum .start) ∧
  decode (.op 2) = .ok (.encode .complete) ∧
  decode (.tx ⟨.write, 4, 0x008, 0x80000001⟩) = .ok .srst ∧
  decode (.tx ⟨.write, 4, 0x004, 0x00000102⟩) = .ok (.clearStatus true true) ∧
  decode (.tx ⟨.write, 4, 0x00C, 0x0000000F⟩) = .ok (.sw 0x00C 15) ∧
  decode (.tx ⟨.read, 1, 0x800, 0⟩) = .ok (.lb 0x800) ∧
  decode (.key 0x8815) = .ok .frameLightStatus ∧
  decode (.key 0x8404) = .ok .frameSpeakerVolume

/-- 20_memory.md R40: exactly two cases of a transaction are legal; every other one ends in a bus error, and
a step that ends so has no next state. -/
def Obligations.LegalTransactionsAreExactlyTwoCases : Prop :=
  ∀ tx : Transaction,
    ((tx.width = 4 ∧ tx.addr.toNat < 0x400 ∧ tx.addr.toNat % 4 = 0) ∨ (tx.width = 1 ∧ 0x400 ≤ tx.addr.toNat) →
      ∃ i, decode (.tx tx) = .ok i) ∧
    (¬((tx.width = 4 ∧ tx.addr.toNat < 0x400 ∧ tx.addr.toNat % 4 = 0) ∨
        (tx.width = 1 ∧ 0x400 ≤ tx.addr.toNat)) →
      ∀ (s : State) (rest : List Event), s.inputs = .host tx :: rest → step s = .fault (.busError tx.addr))

/-! ### The pure functions (40_checksum.md to 43_field_extractors.md) -/

/-- 40_checksum.md R74: the checksum is 255 less the sum modulo 256, the complement of the 8-bit sum; the
length has no effect. -/
def Obligations.ChecksumIsComplementOfSum : Prop :=
  ∀ s : List Byte, (checksum s).toNat = 255 - byteSum s % 256 ∧
    checksum s = ~~~(BitVec.ofNat 8 (byteSum s)) ∧
    checksum s = BitVec.ofNat 8 (byteSum s % 256) ^^^ 0xFF#8

/-- 40_checksum.md R75, first sentence: a sequence that ends in the checksum of the bytes before it, such as
every frame of `Encode`, sums to 0xFF. -/
def Obligations.FrameSumsToAllOnes : Prop :=
  (∀ s : List Byte, byteSum (s ++ [checksum s]) % 256 = 0xFF) ∧
  (∀ (cat fn : Byte) (p f : List Byte), encodeFrame cat fn p = some f → byteSum f % 256 = 0xFF)

/-- 40_checksum.md R76: an 8-bit accumulator over the bytes in any order gives the checksum. -/
def Obligations.AccumulatorInAnyOrderGivesChecksum : Prop :=
  ∀ s t : List Byte, s.Perm t → (t.foldl (fun acc b => acc + b) (0 : Byte)) ^^^ 0xFF#8 = checksum s

/-- 41_frame_builder.md R81: length, header, payload, checksum and byte sum of every frame. -/
def Obligations.EncodedFrameLayout : Prop :=
  ∀ (cat fn : Byte) (p : List Byte), p.length ≤ 255 →
    ∃ f, encodeFrame cat fn p = some f ∧ f.length = p.length + 6 ∧
      byteAt f 0 = 0x55 ∧ byteAt f 1 = 0xAA ∧ (byteAt f 2).toNat = p.length ∧ byteAt f 3 = cat ∧
      byteAt f 4 = fn ∧ (∀ i < p.length, byteAt f (5 + i) = byteAt p i) ∧
      byteAt f (5 + p.length) = checksum (f.take (5 + p.length)) ∧ byteSum f % 256 = 0xFF

/-- 41_frame_builder.md R80, its first sentence: `Encode` has a value exactly for a payload of at most 255
bytes. -/
def Obligations.EncodeDefinedUpTo255Bytes : Prop :=
  ∀ (cat fn : Byte) (p : List Byte), (∃ f, encodeFrame cat fn p = some f) ↔ p.length ≤ 255

/-- 42_frame_parser.md R84, R85, R87: an absent or zero-length buffer is empty under every configuration; a
buffer of 1 to 4 bytes is truncated; one of 5 bytes or more whose pair no entry has is empty. -/
def Obligations.ShortIsTruncatedAndUnknownIsEmpty : Prop :=
  (∀ c : Codes, decodeFrame c none = .empty ∧ decodeFrame c (some []) = .empty) ∧
  ∀ (c : Codes) (b : List Byte),
    (1 ≤ b.length → b.length ≤ 4 → decodeFrame c (some b) = .truncated) ∧
    (5 ≤ b.length → (∀ e : Entry, ¬(byteAt b 3 = e.category c ∧ byteAt b 4 = e.function c)) →
      decodeFrame c (some b) = .empty)

/-- 42_frame_parser.md R88, R89: a matched entry gives its fields, the raw bytes at its offsets in slot order,
from its minimum length on, and is truncated below it. -/
def Obligations.MatchedEntryGivesItsFields : Prop :=
  ∀ (c : Codes), c.WellFormed → ∀ (e : Entry) (b : List Byte), 5 ≤ b.length →
    byteAt b 3 = e.category c → byteAt b 4 = e.function c →
    (b.length < kindMinLen (entryKind e) → decodeFrame c (some b) = .truncated) ∧
    (kindMinLen (entryKind e) ≤ b.length →
      decodeFrame c (some b) = .fields (entryKind e) ((kindOffsets (entryKind e)).map fun o => byteAt b o))

/-- 42_frame_parser.md R92 with 30_encoding.md R66: truncated exactly when one of the offsets that the parser
would read is out of range. -/
def Obligations.TruncatedExactlyWhenAReadIsOutOfRange : Prop :=
  ∀ (c : Codes) (b : List Byte), decodeFrame c (some b) = .truncated ↔
    (1 ≤ b.length ∧ b.length ≤ 4) ∨
    (5 ≤ b.length ∧ ∃ e, dispatch c (byteAt b 3) (byteAt b 4) = some e ∧
      ∃ o ∈ kindOffsets (entryKind e), b.length ≤ o)

/-- 42_frame_parser.md R90, 43_field_extractors.md R103: the result depends on the length, the key and the
bytes at the matched extractor's offsets, and on nothing else. -/
def Obligations.DecodeReadsNoOtherByte : Prop :=
  ∀ (c : Codes) (b b' : List Byte), b.length = b'.length → byteAt b 3 = byteAt b' 3 → byteAt b 4 = byteAt b' 4 →
    (∀ e, dispatch c (byteAt b 3) (byteAt b 4) = some e →
      ∀ o ∈ kindOffsets (entryKind e), byteAt b o = byteAt b' o) →
    decodeFrame c (some b) = decodeFrame c (some b')

/-- 42_frame_parser.md R93: a frame built for an entry decodes to that entry's kind, with the function code at
offset 4, payload bytes, and the checksum at offset 5 + len(p). -/
def Obligations.EncodedFrameIsRecognised : Prop :=
  ∀ (c : Codes), c.WellFormed → ∀ (e : Entry) (p : List Byte), p.length ≤ 255 →
    kindMinLen (entryKind e) ≤ p.length + 6 →
    ∃ f, encodeFrame (e.category c) (e.function c) p = some f ∧
      decodeFrame c (some f) = .fields (entryKind e) ((kindOffsets (entryKind e)).map fun o =>
        if o = 4 then e.function c
        else if o ≤ 4 + p.length then byteAt p (o - 5)
        else checksum (f.take (5 + p.length)))

/-! ### Starting a command, and the input lock (44_command_interface.md, 70_reset_and_hazards.md) -/

/-- 44_command_interface.md R115: an accepted CMD write latches the operation, sets BUSY and clears DONE and
ERR, and changes nothing else, for all eight operations. The answer `resp` and the start phase are the
model's (log 4, log 9). -/
def Obligations.IdleCmdWriteStartsTheCommand : Prop :=
  ∀ s : State, s.busy = false →
    exec (.cksum .start) s =
      .next { s with cmdOp := 1, busy := true, done := false, err := 0, resp := .ack } ∧
    exec (.encode .start) s =
      .next { s with cmdOp := 2, busy := true, done := false, err := 0, resp := .ack } ∧
    exec (.decode .start) s =
      .next { s with cmdOp := 3, busy := true, done := false, err := 0, resp := .ack } ∧
    exec (.reservedOp0 .start) s =
      .next { s with cmdOp := 0, busy := true, done := false, err := 0, resp := .ack } ∧
    exec (.reservedOp4 .start) s =
      .next { s with cmdOp := 4, busy := true, done := false, err := 0, resp := .ack } ∧
    exec (.reservedOp5 .start) s =
      .next { s with cmdOp := 5, busy := true, done := false, err := 0, resp := .ack } ∧
    exec (.reservedOp6 .start) s =
      .next { s with cmdOp := 6, busy := true, done := false, err := 0, resp := .ack } ∧
    exec (.reservedOp7 .start) s =
      .next { s with cmdOp := 7, busy := true, done := false, err := 0, resp := .ack }

/-- 70_reset_and_hazards.md R137: while a command is pending a write to CMD, IBUF_LEN, ENC_CAT, ENC_FN or an
IBUF byte is dropped and sets BUSY_WR (the answer `resp` and the start phase of the command rows are the
model's, log 4, log 9). -/
def Obligations.BusyInputWritesAreDropped : Prop :=
  ∀ s : State, s.busy = true →
    (∀ i ∈ [Instr.cksum .start, .encode .start, .decode .start, .reservedOp0 .start, .reservedOp4 .start,
        .reservedOp5 .start, .reservedOp6 .start, .reservedOp7 .start],
      exec i s = .next { s with busyWr := true, resp := .ack }) ∧
    (∀ (a : Offset) (w : Word), a = 0x000 ∨ a = 0x00C ∨ a = 0x014 ∨ a = 0x018 →
      exec (.sw a w) s = .next { s with busyWr := true, resp := .ack }) ∧
    (∀ (a : Offset) (v : Byte), 0x400 ≤ a.toNat → a.toNat ≤ 0x5FF →
      exec (.sb a v) s = .next { s with busyWr := true, resp := .ack })

/-- 10_state.md R35, 70_reset_and_hazards.md R138: from a pending command to a still pending command a step
changes no input the engine reads, no result register, and no byte of IBUF or OBUF. -/
def Obligations.PendingCommandKeepsItsInputsAndResults : Prop :=
  ∀ s t : State, s.busy = true → step s = .next t → t.busy = true →
    t.cmdOp = s.cmdOp ∧ t.ibufLen = s.ibufLen ∧ t.encCat = s.encCat ∧ t.encFn = s.encFn ∧
    t.obufLen = s.obufLen ∧ t.cksumResult = s.cksumResult ∧ t.decKind = s.decKind ∧
    t.decCount = s.decCount ∧ t.decField = s.decField ∧ t.err = s.err ∧
    ∀ a, t.readByte a = s.readByte a

/-! ### The completion steps (40_checksum.md R77, 41_frame_builder.md R82, 42_frame_parser.md R94 to R102) -/

/-- 40_checksum.md R77: what the completion of CKSUM writes, and all it writes. The completion phase is the
model's reading (log 9). -/
def Obligations.CksumCompletion : Prop :=
  ∀ s : State, s.busy = true → s.cmdOp = 1 →
    exec (.cksum .complete) s = .next
      (if s.ibufLen.toNat ≤ 512 then
        { s with cksumResult := checksum (s.ibuf s.ibufLen.toNat), err := 0, busy := false, done := true }
      else { s with cksumResult := 0, err := 4, busy := false, done := true })

/-- 41_frame_builder.md R82: a payload of at most 255 bytes is built into OBUF[0..LEN+5], with its length
and checksum; every other byte of memory and every other field is kept. A longer one fails with
PAYLOAD_TOO_LARGE up to 512 and BAD_LENGTH above, with both result registers 0 and OBUF kept. The completion
phase is the model's reading (log 9). -/
def Obligations.EncodeCompletion : Prop :=
  ∀ s : State, s.busy = true → s.cmdOp = 2 →
    (s.ibufLen.toNat ≤ 255 → ∃ t f,
      exec (.encode .complete) s = .next t ∧
      encodeFrame s.encCat s.encFn (s.ibuf s.ibufLen.toNat) = some f ∧
      t.obuf (s.ibufLen.toNat + 6) = f ∧
      (∀ a, a < 0x800 ∨ 0x800 + s.ibufLen.toNat + 6 ≤ a → t.readByte a = s.readByte a) ∧
      t = { s with mem := t.mem, obufLen := s.ibufLen + 6, cksumResult := byteAt f (s.ibufLen.toNat + 5),
                   err := 0, busy := false, done := true }) ∧
    (255 < s.ibufLen.toNat → s.ibufLen.toNat ≤ 512 → exec (.encode .complete) s = .next
      { s with obufLen := 0, cksumResult := 0, err := 2, busy := false, done := true }) ∧
    (512 < s.ibufLen.toNat → exec (.encode .complete) s = .next
      { s with obufLen := 0, cksumResult := 0, err := 4, busy := false, done := true })

/-- 42_frame_parser.md R102: what the completion of DECODE writes for each result of `Decode`. The
completion phase is the model's reading (log 9). -/
def Obligations.DecodeCompletion : Prop :=
  ∀ s : State, s.busy = true → s.cmdOp = 3 →
    exec (.decode .complete) s = .next
      (if 512 < s.ibufLen.toNat then
        { s with decKind := 0, decCount := 0, decField := Vector.replicate 8 0, err := 4, busy := false,
                 done := true }
      else match decodeFrame Config.codes (some (s.ibuf s.ibufLen.toNat)) with
        | .empty => { s with decKind := 0, decCount := 0, decField := Vector.replicate 8 0, err := 0,
                             busy := false, done := true }
        | .truncated => { s with decKind := 0, decCount := 0, decField := Vector.replicate 8 0, err := 1,
                                 busy := false, done := true }
        | .fields k vs => { s with decKind := kindCode k, decCount := BitVec.ofNat 4 vs.length,
                                   decField := Vector.ofFn (fun i => vs.getD i.val 0), err := 0,
                                   busy := false, done := true })

/-- 44_command_interface.md R118: the reserved operations fail with BAD_COMMAND and write nothing else. The
completion phase is the model's reading (log 9). -/
def Obligations.ReservedOperationsFailWithBadCommand : Prop :=
  ∀ s : State, s.busy = true →
    (s.cmdOp = 0 → exec (.reservedOp0 .complete) s = .next { s with err := 3, busy := false, done := true }) ∧
    (s.cmdOp = 4 → exec (.reservedOp4 .complete) s = .next { s with err := 3, busy := false, done := true }) ∧
    (s.cmdOp = 5 → exec (.reservedOp5 .complete) s = .next { s with err := 3, busy := false, done := true }) ∧
    (s.cmdOp = 6 → exec (.reservedOp6 .complete) s = .next { s with err := 3, busy := false, done := true }) ∧
    (s.cmdOp = 7 → exec (.reservedOp7 .complete) s = .next { s with err := 3, busy := false, done := true })

/-- 42_frame_parser.md R94: the light status frame. The frame row is the completion of DECODE (log 10). -/
def Obligations.LightStatusFrameCompletion : Prop :=
  ∀ s : State, s.busy = true → s.cmdOp = 3 → 5 ≤ s.ibufLen.toNat → s.ibufLen.toNat ≤ 512 →
    s.readByte 0x403 = 0x88 → s.readByte 0x404 = 0x15 →
    exec .frameLightStatus s = .next
      (if s.ibufLen.toNat < 13 then
        { s with decKind := 0, decCount := 0, decField := Vector.replicate 8 0, err := 1, busy := false,
                 done := true }
      else
        { s with decKind := 1, decCount := 8, err := 0, busy := false, done := true
                 decField := #v[s.readByte 0x405, s.readByte 0x406, s.readByte 0x407, s.readByte 0x408,
                   s.readByte 0x409, s.readByte 0x40A, s.readByte 0x40B, s.readByte 0x40C] })

/-- 42_frame_parser.md R95, R96: the two timer auto frames; slot 0 is the function code. The frame row is
the completion of DECODE (log 10). -/
def Obligations.TimerAutoFrameCompletion : Prop :=
  ∀ s : State, s.busy = true → s.cmdOp = 3 → 5 ≤ s.ibufLen.toNat → s.ibufLen.toNat ≤ 512 →
    s.readByte 0x403 = Config.codes.catTimer →
    ∀ i fn, (i = Instr.frameTimerAutoLight ∧ fn = Config.codes.fnTimerAutoLight) ∨
        (i = Instr.frameTimerAutoMusic ∧ fn = Config.codes.fnTimerAutoMusic) →
      s.readByte 0x404 = fn →
      exec i s = .next
        (if s.ibufLen.toNat < 10 then
          { s with decKind := 0, decCount := 0, decField := Vector.replicate 8 0, err := 1, busy := false,
                   done := true }
        else
          { s with decKind := 2, decCount := 6, err := 0, busy := false, done := true
                   decField := #v[fn, s.readByte 0x405, s.readByte 0x406, s.readByte 0x407,
                     s.readByte 0x408, s.readByte 0x409, 0, 0] })

/-- 42_frame_parser.md R97, R98, R99: the three timer alarm frames; slot 0 is the function code. The frame
row is the completion of DECODE (log 10). -/
def Obligations.TimerAlarmFrameCompletion : Prop :=
  ∀ s : State, s.busy = true → s.cmdOp = 3 → 5 ≤ s.ibufLen.toNat → s.ibufLen.toNat ≤ 512 →
    s.readByte 0x403 = Config.codes.catTimer →
    ∀ i fn, (i = Instr.frameTimerAlarm1 ∧ fn = Config.codes.fnTimerAlarm1) ∨
        (i = Instr.frameTimerAlarm2 ∧ fn = Config.codes.fnTimerAlarm2) ∨
        (i = Instr.frameTimerAlarm3 ∧ fn = Config.codes.fnTimerAlarm3) →
      s.readByte 0x404 = fn →
      exec i s = .next
        (if s.ibufLen.toNat < 15 then
          { s with decKind := 0, decCount := 0, decField := Vector.replicate 8 0, err := 1, busy := false,
                   done := true }
        else
          { s with decKind := 3, decCount := 4, err := 0, busy := false, done := true
                   decField := #v[fn, s.readByte 0x40B, s.readByte 0x40C, s.readByte 0x40E, 0, 0, 0, 0] })

/-- 42_frame_parser.md R100: the speaker volume frame. The frame row is the completion of DECODE (log 10). -/
def Obligations.SpeakerVolumeFrameCompletion : Prop :=
  ∀ s : State, s.busy = true → s.cmdOp = 3 → 5 ≤ s.ibufLen.toNat → s.ibufLen.toNat ≤ 512 →
    s.readByte 0x403 = 0x84 → s.readByte 0x404 = 0x04 →
    exec .frameSpeakerVolume s = .next
      (if s.ibufLen.toNat < 6 then
        { s with decKind := 0, decCount := 0, decField := Vector.replicate 8 0, err := 1, busy := false,
                 done := true }
      else
        { s with decKind := 4, decCount := 1, err := 0, busy := false, done := true
                 decField := #v[s.readByte 0x405, 0, 0, 0, 0, 0, 0, 0] })

/-- 42_frame_parser.md R101: the speaker equalizer frame. The frame row is the completion of DECODE (log
10). -/
def Obligations.SpeakerEqualizerFrameCompletion : Prop :=
  ∀ s : State, s.busy = true → s.cmdOp = 3 → 5 ≤ s.ibufLen.toNat → s.ibufLen.toNat ≤ 512 →
    s.readByte 0x403 = 0x84 → s.readByte 0x404 = Config.codes.fnSpeakerEqualizer →
    exec .frameSpeakerEqualizer s = .next
      (if s.ibufLen.toNat < 10 then
        { s with decKind := 0, decCount := 0, decField := Vector.replicate 8 0, err := 1, busy := false,
                 done := true }
      else
        { s with decKind := 5, decCount := 5, err := 0, busy := false, done := true
                 decField := #v[s.readByte 0x405, s.readByte 0x406, s.readByte 0x407, s.readByte 0x408,
                   s.readByte 0x409, 0, 0, 0] })

/-- 42_frame_parser.md R83, R102: the instruction of a dispatch entry does what the whole of DECODE does on a
buffer with that entry's key (the model's reading of the FRAME rows, log 10). -/
def Obligations.FrameInstructionAgreesWithDecode : Prop :=
  ∀ (s : State) (e : Entry), readsKey s = true → inputKey s = e.key Config.codes →
    exec e.instr s = exec (.decode .complete) s

/-- 42_frame_parser.md R91: two DECODE commands, one after the other on unchanged inputs, write identical
results. The two phases are the model's reading (log 9). -/
def Obligations.DecodeTwiceGivesTheSameResults : Prop :=
  ∀ s : State, s.busy = true → s.cmdOp = 3 →
    ∃ t u v, exec (.decode .complete) s = .next t ∧ exec (.decode .start) t = .next u ∧
      exec (.decode .complete) u = .next v ∧
      v.decKind = t.decKind ∧ v.decCount = t.decCount ∧ v.decField = t.decField ∧ v.err = t.err ∧
      (∀ a, v.readByte a = s.readByte a)

/-! ### Steps -/

/-- 44_command_interface.md R110, 20_memory.md R47: a step runs the instruction that the next event presents,
and takes that event off the agenda (the model's form of the interleaving, log 1, log 2). -/
def Obligations.StepRunsTheDecodedInstruction : Prop :=
  (∀ (s : State) (tx : Transaction) (rest : List Event) (i : Instr), s.inputs = .host tx :: rest →
    decode (.tx tx) = .ok i → step s = exec i { s with inputs := rest }) ∧
  (∀ (s : State) (i : Instr), s.busy = true → s.inputs = [] → decode (engineCode s) = .ok i →
    step s = exec i s) ∧
  (∀ (s : State) (rest : List Event) (i : Instr), s.busy = true → s.inputs = .engine :: rest →
    decode (engineCode s) = .ok i → step s = exec i { s with inputs := rest })

/-- 44_command_interface.md R116: the engine's step, whichever code it fetches, is the completion step of
the operation in CMD.OP; it ends with BUSY = 0 and DONE = 1 and keeps CMD.OP. The agenda is the model's (log
1). -/
def Obligations.EngineStepCompletesThePendingCommand : Prop :=
  ∀ (s : State) (rest : List Event), s.busy = true → s.inputs = .engine :: rest →
    ∃ t, step s = .next t ∧ t.busy = false ∧ t.done = true ∧ t.cmdOp = s.cmdOp ∧
      (s.cmdOp = 1 → exec (.cksum .complete) { s with inputs := rest } = .next t) ∧
      (s.cmdOp = 2 → exec (.encode .complete) { s with inputs := rest } = .next t) ∧
      (s.cmdOp = 3 → exec (.decode .complete) { s with inputs := rest } = .next t) ∧
      (s.cmdOp = 0 → exec (.reservedOp0 .complete) { s with inputs := rest } = .next t) ∧
      (s.cmdOp = 4 → exec (.reservedOp4 .complete) { s with inputs := rest } = .next t) ∧
      (s.cmdOp = 5 → exec (.reservedOp5 .complete) { s with inputs := rest } = .next t) ∧
      (s.cmdOp = 6 → exec (.reservedOp6 .complete) { s with inputs := rest } = .next t) ∧
      (s.cmdOp = 7 → exec (.reservedOp7 .complete) { s with inputs := rest } = .next t)

/-- 60_exceptions.md R133: an idle block changes nothing, and an engine event changes nothing of it either
(the agenda is the model's own, log 1, log 3). -/
def Obligations.IdleBlockChangesNothing : Prop :=
  ∀ s : State, s.busy = false →
    (s.inputs = [] → step s = .next s) ∧
    (∀ rest, s.inputs = .engine :: rest → step s = .next { s with inputs := rest })

/-- 60_exceptions.md R121, 93_implementation_defined.md: a step answers a next state, but for an illegal
host transaction, which ends in BusError; nothing else stops the block and no step is refused. The agenda is
the model's (log 1). -/
def Obligations.OnlyIllegalTransactionsStopTheBlock : Prop :=
  ∀ s : State, (∃ t, step s = .next t) ∨
    ∃ tx rest, s.inputs = .host tx :: rest ∧
      ¬((tx.width = 4 ∧ tx.addr.toNat < 0x400 ∧ tx.addr.toNat % 4 = 0) ∨
        (tx.width = 1 ∧ 0x400 ≤ tx.addr.toNat)) ∧
      step s = .fault (.busError tx.addr)

/-- 60_exceptions.md R120, R121: with a legal agenda the block never stops, over any number of steps. The
agenda is the model's (log 1). -/
def Obligations.LegalAgendaNeverStops : Prop :=
  ∀ (k : Nat) (s : State), inputsLegal s = true → ∃ t, Host.Core.run Sys2Proof.core k s = .next t

/-! ### Host transactions (44_command_interface.md R111 to R114) -/

/-- 10_state.md R25, R27, R28, 44_command_interface.md R111: an idle write of an input register stores its
low bits and changes nothing else. The answer `resp` is the model's (log 4). -/
def Obligations.IdleInputRegisterWrites : Prop :=
  ∀ (s : State) (w : Word), s.busy = false →
    exec (.sw 0x00C w) s = .next { s with ibufLen := BitVec.ofNat 16 w.toNat, resp := .ack } ∧
    exec (.sw 0x014 w) s = .next { s with encCat := BitVec.ofNat 8 w.toNat, resp := .ack } ∧
    exec (.sw 0x018 w) s = .next { s with encFn := BitVec.ofNat 8 w.toNat, resp := .ack }

/-- 44_command_interface.md R111, last case, with 20_memory.md R41: a legal write of a read-only register or
a reserved offset has no effect, busy or not, and does not set BUSY_WR. The answer `resp` is the model's
(log 4). -/
def Obligations.OtherRegisterWritesAreIgnored : Prop :=
  ∀ (s : State) (a : Offset) (w : Word), a.toNat < 0x400 → a.toNat % 4 = 0 →
    a ≠ 0x000 → a ≠ 0x004 → a ≠ 0x008 → a ≠ 0x00C → a ≠ 0x014 → a ≠ 0x018 →
    exec (.sw a w) s = .next { s with resp := .ack }

/-- 44_command_interface.md R111: a word written to CMD, STATUS or CTRL by the general form sw does what the row
of that word does (log 13). -/
def Obligations.SwAgreesWithTheWordRows : Prop :=
  ∀ (s : State) (w : Word),
    exec (.sw 0x000 w) s = exec (decodeCmdWord w) s ∧
    exec (.sw 0x004 w) s = exec (decodeStatusWord w) s ∧
    exec (.sw 0x008 w) s = exec (decodeCtrlWord w) s

/-- 44_command_interface.md R112: what each register reads as; nothing but the answer of the port changes.
The field `resp` holds the returned value (log 4). -/
def Obligations.LwReturnsTheRegister : Prop :=
  ∀ s : State,
    exec (.lw 0x000) s = .next { s with resp := .word (BitVec.ofNat 32 s.cmdOp.toNat) } ∧
    exec (.lw 0x004) s = .next { s with resp := .word (BitVec.ofNat 32
      (s.busy.toNat + 2 * s.done.toNat + 16 * s.err.toNat + 256 * s.busyWr.toNat)) } ∧
    exec (.lw 0x008) s = .next { s with resp := .word (BitVec.ofNat 32 s.irqEn.toNat) } ∧
    exec (.lw 0x00C) s = .next { s with resp := .word (BitVec.ofNat 32 s.ibufLen.toNat) } ∧
    exec (.lw 0x010) s = .next { s with resp := .word (BitVec.ofNat 32 s.obufLen.toNat) } ∧
    exec (.lw 0x014) s = .next { s with resp := .word (BitVec.ofNat 32 s.encCat.toNat) } ∧
    exec (.lw 0x018) s = .next { s with resp := .word (BitVec.ofNat 32 s.encFn.toNat) } ∧
    exec (.lw 0x01C) s = .next { s with resp := .word (BitVec.ofNat 32 s.cksumResult.toNat) } ∧
    exec (.lw 0x020) s = .next { s with resp := .word (BitVec.ofNat 32 s.decKind.toNat) } ∧
    exec (.lw 0x024) s = .next { s with resp := .word (BitVec.ofNat 32 s.decCount.toNat) } ∧
    (∀ i : Fin 8, exec (.lw (BitVec.ofNat 12 (0x040 + 4 * i.val))) s =
      .next { s with resp := .word (BitVec.ofNat 32 s.decField[i].toNat) }) ∧
    (∀ a : Offset, a.toNat < 0x400 → a.toNat % 4 = 0 → (0x028 ≤ a.toNat ∧ a.toNat < 0x040) ∨ 0x060 ≤ a.toNat →
      exec (.lw a) s = .next { s with resp := .word 0 })

/-- 44_command_interface.md R113: a byte write of IBUF while idle stores that one byte; while busy it is
dropped and marked; every other offset of the byte-wide windows ignores it. The answer `resp` is the model's
(log 4). -/
def Obligations.SbWritesOneInputByte : Prop :=
  ∀ (s : State) (a : Offset) (v : Byte),
    (0x400 ≤ a.toNat → a.toNat ≤ 0x5FF → s.busy = false → ∃ t, exec (.sb a v) s = .next t ∧
      t.readByte a.toNat = v ∧ (∀ b, b ≠ a.toNat → t.readByte b = s.readByte b) ∧
      t = { s with mem := t.mem, resp := .ack }) ∧
    (0x400 ≤ a.toNat → a.toNat ≤ 0x5FF → s.busy = true →
      exec (.sb a v) s = .next { s with busyWr := true, resp := .ack }) ∧
    (0x600 ≤ a.toNat → exec (.sb a v) s = .next { s with resp := .ack })

/-- 44_command_interface.md R114: a byte read returns the byte of IBUF or OBUF, 0 elsewhere, busy or not.
The field `resp` holds the returned value (log 4). -/
def Obligations.LbReturnsTheByte : Prop :=
  ∀ (s : State) (a : Offset),
    (0x400 ≤ a.toNat → a.toNat ≤ 0x5FF →
      exec (.lb a) s = .next { s with resp := .byte (s.readByte (0x400 + (a.toNat - 0x400))) }) ∧
    (0x800 ≤ a.toNat → a.toNat ≤ 0x9FF →
      exec (.lb a) s = .next { s with resp := .byte (s.readByte (0x800 + (a.toNat - 0x800))) }) ∧
    ((0x600 ≤ a.toNat ∧ a.toNat ≤ 0x7FF) ∨ 0xA00 ≤ a.toNat →
      exec (.lb a) s = .next { s with resp := .byte 0 })

/-- 20_memory.md R40, 60_exceptions.md R121: the four forms on an operand outside the window they may reach end
in BusError. -/
def Obligations.OperandsOutsideTheWindowFault : Prop :=
  ∀ (s : State) (a : Offset),
    (¬(a.toNat < 0x400 ∧ a.toNat % 4 = 0) →
      (∀ w, exec (.sw a w) s = .fault (.busError a)) ∧ exec (.lw a) s = .fault (.busError a)) ∧
    (a.toNat < 0x400 →
      (∀ v, exec (.sb a v) s = .fault (.busError a)) ∧ exec (.lb a) s = .fault (.busError a))

/-- 10_state.md R22: a STATUS write clears DONE for bit 1 and BUSY_WR for bit 8 and changes nothing else,
busy or not. The answer `resp` is the model's (log 4). -/
def Obligations.StatusWriteClearsOnly : Prop :=
  ∀ (s : State) (d b : Bool), exec (.clearStatus d b) s = .next
    { s with done := if d then false else s.done, busyWr := if b then false else s.busyWr, resp := .ack }

/-- 10_state.md R23, R24: a CTRL write with bit 31 clear sets IRQ_EN and does nothing else, busy or not. The
answer `resp` is the model's (log 4). -/
def Obligations.CtrlWriteSetsIrqEn : Prop :=
  ∀ (s : State) (b : Bool), exec (.setCtrl b) s = .next { s with irqEn := b, resp := .ack }

/-- 70_reset_and_hazards.md R135: the soft reset gives every register field its power-on value, discards a
pending command and keeps both buffers, from every state. Of `resp`, the model's own (log 4), nothing is
said. -/
def Obligations.SoftResetClearsRegistersAndKeepsBuffers : Prop :=
  ∀ s : State, ∃ t, exec .srst s = .next t ∧ t =
    { cmdOp := 0, busy := false, done := false, err := 0, busyWr := false, irqEn := false, ibufLen := 0,
      obufLen := 0, encCat := 0, encFn := 0, cksumResult := 0, decKind := 0, decCount := 0,
      decField := Vector.replicate 8 0, mem := s.mem, inputs := s.inputs, resp := t.resp, epoch := s.epoch }

/-! ### Who may change what -/

/-- 10_state.md R26, R34: only the completion of an ENCODE, a reset apart, changes OBUF_LEN; only the
successful completion of an ENCODE, a power-on apart, changes a byte of OBUF, and only one of
OBUF[0..OBUF_LEN-1]. That a CTRL word with bit 31 decodes to the row SRST is the model's reading (log 13). -/
def Obligations.OnlyEncodeChangesTheOutputBuffer : Prop :=
  ∀ s t : State, step s = .next t → (∀ rest, s.inputs ≠ .powerOn :: rest) →
    (t.obufLen ≠ s.obufLen →
      (s.busy = true ∧ s.cmdOp = 2 ∧ t.busy = false ∧ t.done = true) ∨
      (∃ tx rest, s.inputs = .host tx :: rest ∧ decode (.tx tx) = .ok .srst ∧ t.obufLen = 0)) ∧
    (∀ a, 0x800 ≤ a → a ≤ 0x9FF → t.readByte a ≠ s.readByte a →
      s.busy = true ∧ s.cmdOp = 2 ∧ t.busy = false ∧ t.done = true ∧ t.err = 0 ∧
      t.obufLen.toNat = s.ibufLen.toNat + 6 ∧ a < 0x800 + t.obufLen.toNat)

/-- 10_state.md R33, R35: a byte of IBUF changes only by a host byte write of that offset while idle, a
power-on apart; in particular no step of the engine changes one. -/
def Obligations.OnlyHostByteWritesChangeTheInputBuffer : Prop :=
  ∀ s t : State, step s = .next t → (∀ rest, s.inputs ≠ .powerOn :: rest) →
    ∀ a, 0x400 ≤ a → a ≤ 0x5FF → t.readByte a ≠ s.readByte a →
      s.busy = false ∧ ∃ tx rest, s.inputs = .host tx :: rest ∧ tx.dir = .write ∧ tx.width = 1 ∧
        tx.addr.toNat = a ∧ t.readByte a = BitVec.ofNat 8 tx.data.toNat

/-- 10_state.md R15, R19, R22, 60_exceptions.md R123, R124: IDLE goes to BUSY only by an accepted CMD write;
BUSY goes to IDLE only by the completion step, which sets DONE, or by a soft reset, a power-on apart; DONE
is set by a completion step alone, and cleared only by a STATUS write with bit 1 set, an accepted CMD write
or a soft reset, a power-on apart. The agenda is the model's (log 1). -/
def Obligations.SequencerMovesOnlyByStartCompletionAndReset : Prop :=
  ∀ s t : State, step s = .next t → (∀ rest, s.inputs ≠ .powerOn :: rest) →
    (s.busy = false → t.busy = true → ∃ w rest, s.inputs = .host ⟨.write, 4, 0x000, w⟩ :: rest ∧
      t.cmdOp.toNat = w.toNat % 8) ∧
    (s.busy = true → t.busy = false →
      ((∀ tx rest, s.inputs ≠ .host tx :: rest) ∧ t.done = true) ∨
      (∃ w rest, s.inputs = .host ⟨.write, 4, 0x008, w⟩ :: rest ∧ 2 ^ 31 ≤ w.toNat)) ∧
    (s.done = false → t.done = true →
      s.busy = true ∧ t.busy = false ∧ ∀ tx rest, s.inputs ≠ .host tx :: rest) ∧
    (s.done = true → t.done = false → ∃ w rest,
      (s.inputs = .host ⟨.write, 4, 0x004, w⟩ :: rest ∧ w.toNat / 2 % 2 = 1) ∨
      (s.inputs = .host ⟨.write, 4, 0x000, w⟩ :: rest ∧ s.busy = false ∧ t.busy = true) ∨
      (s.inputs = .host ⟨.write, 4, 0x008, w⟩ :: rest ∧ 2 ^ 31 ≤ w.toNat))

/-- 10_state.md R36, 60_exceptions.md R123, 70_reset_and_hazards.md R141: IRQ falls only by a STATUS write
that clears DONE, a CTRL write with bit 0 or with SRST, or a command start, a power-on apart; it rises only
by a completion step with IRQ_EN = 1 or by enabling it while DONE = 1. That a STATUS or CTRL word decodes to
its own row is the model's reading (log 13). -/
def Obligations.IrqChangesOnlyByItsCauses : Prop :=
  ∀ s t : State, step s = .next t → (∀ rest, s.inputs ≠ .powerOn :: rest) →
    (s.irq = true → t.irq = false → ∃ tx rest i, s.inputs = .host tx :: rest ∧ decode (.tx tx) = .ok i ∧
      ((∃ b, i = .clearStatus true b) ∨ i = .setCtrl false ∨ i = .srst ∨
        (s.busy = false ∧ t.busy = true))) ∧
    (s.irq = false → t.irq = true →
      (s.irqEn = true ∧ s.busy = true ∧ t.busy = false ∧ t.done = true) ∨
      (s.done = true ∧ ∃ tx rest, s.inputs = .host tx :: rest ∧ decode (.tx tx) = .ok (.setCtrl true)))

/-! ### Invariants and reset -/

/-- 10_state.md R37: every step keeps the seven invariants, and the canonical form of memory, which is the
model's own (log 5). -/
def Obligations.StepKeepsTheInvariants : Prop :=
  ∀ s t : State, Inv s → step s = .next t → Inv t

/-- 10_state.md R37: the invariants hold at power-on reset. -/
def Obligations.ResetHasTheInvariants : Prop := Inv State.reset

/-- 70_reset_and_hazards.md R134: after power-on every register field is 0, no command is pending and IRQ = 0.
That no byte of memory is listed, and the values of `inputs`, `resp` and `epoch`, are the model's choices
(log 1, log 4, log 5, log 6) and are not stated here. -/
def Obligations.PowerOnClearsEveryRegister : Prop :=
  ∀ s : State, s = State.reset ∨ (∃ r : State, ∃ rest, r.inputs = .powerOn :: rest ∧ step r = .next s) →
    s.cmdOp = 0 ∧ s.busy = false ∧ s.done = false ∧ s.err = 0 ∧ s.busyWr = false ∧ s.irqEn = false ∧
    s.ibufLen = 0 ∧ s.obufLen = 0 ∧ s.encCat = 0 ∧ s.encFn = 0 ∧ s.cksumResult = 0 ∧ s.decKind = 0 ∧
    s.decCount = 0 ∧ (∀ i : Fin 8, s.decField[i] = 0) ∧ s.irq = false

/-! ### A DECODE of no bytes -/

/-- 42_frame_parser.md R84 with R102: DECODE with IBUF_LEN = 0, the block's only form of an absent or an empty
buffer, reports no error and no field, whatever IBUF holds. The completion phase is the model's reading (log 9). -/
def Obligations.ZeroLengthDecodeReportsNothing : Prop :=
  ∀ s : State, s.busy = true → s.cmdOp = 3 → s.ibufLen = 0 →
    exec (.decode .complete) s = .next
      { s with decKind := 0, decCount := 0, decField := Vector.replicate 8 0, err := 0, busy := false,
               done := true }
end

