-- ==== Sys2Proof/Laws/Codec.lean ====
section
/-! SUPPORT. The small lemmas of the pure functions. -/
namespace Sys2Proof.Machine

@[simp] theorem byteSum_nil : byteSum [] = 0 := rfl

@[simp] theorem byteSum_cons (b : Byte) (s : List Byte) : byteSum (b :: s) = b.toNat + byteSum s := by
  simp [byteSum]

@[simp] theorem byteSum_append (s t : List Byte) : byteSum (s ++ t) = byteSum s + byteSum t := by
  simp [byteSum]

@[simp] theorem frameHeader_length (cat fn : Byte) (n : Nat) : (frameHeader cat fn n).length = 5 := rfl

/-- A payload of at most 255 bytes has a frame: its header, itself, its checksum. -/
theorem encodeFrame_of_le {cat fn : Byte} {p : List Byte} (h : p.length ≤ 255) :
    encodeFrame cat fn p =
      some (frameHeader cat fn p.length ++ p ++ [checksum (frameHeader cat fn p.length ++ p)]) :=
  if_pos h

/-- A longer payload has none. -/
theorem encodeFrame_of_gt {cat fn : Byte} {p : List Byte} (h : 255 < p.length) :
    encodeFrame cat fn p = none := if_neg (Nat.not_le.mpr h)

/-- Everything a frame of `Encode` is. -/
theorem encodeFrame_eq_some {cat fn : Byte} {p f : List Byte} (h : encodeFrame cat fn p = some f) :
    p.length ≤ 255 ∧
      f = frameHeader cat fn p.length ++ p ++ [checksum (frameHeader cat fn p.length ++ p)] := by
  by_cases hp : p.length ≤ 255
  · rw [encodeFrame_of_le hp] at h
    exact ⟨hp, (Option.some.inj h).symm⟩
  · rw [encodeFrame_of_gt (Nat.not_le.mp hp)] at h
    cases h

/-- A frame is six bytes longer than its payload. -/
theorem encodeFrame_length {cat fn : Byte} {p f : List Byte} (h : encodeFrame cat fn p = some f) :
    f.length = p.length + 6 := by
  rw [(encodeFrame_eq_some h).2]
  simp
  omega

/-- A byte of a sequence before the last byte added. -/
theorem byteAt_append_left (s t : List Byte) {i : Nat} (h : i < s.length) :
    byteAt (s ++ t) i = byteAt s i := by
  simp [byteAt, List.getD, List.getElem?_append_left h]

/-- A byte of the sequence appended. -/
theorem byteAt_append_right (s t : List Byte) {i : Nat} (h : s.length ≤ i) :
    byteAt (s ++ t) i = byteAt t (i - s.length) := by
  simp [byteAt, List.getD, List.getElem?_append_right h]

/-- An extractor reads as many bytes as it has slots. -/
@[simp] theorem extract_length (k : Kind) (b : List Byte) :
    (extract k b).length = (kindOffsets k).length := by simp [extract]

/-- An extractor has one to eight slots. -/
theorem kindOffsets_length (k : Kind) :
    1 ≤ (kindOffsets k).length ∧ (kindOffsets k).length ≤ 8 := by cases k <;> decide

/-- Every offset an extractor reads lies below its minimum length. -/
theorem kindOffsets_lt_minLen (k : Kind) : ∀ o ∈ kindOffsets k, o < kindMinLen k := by
  cases k <;> decide

/-- The dispatched entry's pair is the buffer's. -/
theorem dispatch_some {c : Codes} {cat fn : Byte} {e : Entry} (h : dispatch c cat fn = some e) :
    cat = e.category c ∧ fn = e.function c := by
  simpa using List.find?_some h

/-- No entry's pair is the buffer's when none is dispatched. -/
theorem dispatch_none {c : Codes} {cat fn : Byte} (h : dispatch c cat fn = none) (e : Entry) :
    ¬(cat = e.category c ∧ fn = e.function c) := by
  have he : e ∈ dispatchTable := by cases e <;> decide
  simpa using List.find?_eq_none.mp h e he

/-- A key determines its two bytes. -/
theorem keyOf_inj {a b c d : Byte} (h : keyOf a b = keyOf c d) : a = c ∧ b = d := by
  have h1 := congrArg (BitVec.extractLsb' 8 8) h
  have h2 := congrArg (BitVec.extractLsb' 0 8) h
  simp only [keyOf, BitVec.extractLsb'_append_eq_of_add_le, BitVec.extractLsb'_append_eq_of_le,
    Nat.le_refl, Nat.zero_add, Nat.sub_self, BitVec.extractLsb'_eq_self] at h1 h2
  exact ⟨h1, h2⟩

end Sys2Proof.Machine
end

