-- ==== Sys2Proof/Laws/State.lean ====
section
/-! SUPPORT. What each named update does to each field of State: one lemma per field, true by rfl. -/
namespace Sys2Proof.Machine

@[simp] theorem setErr_cmdOp (e : ErrCode) (s : State) : (setErr e s).cmdOp = s.cmdOp := rfl
@[simp] theorem setErr_busy (e : ErrCode) (s : State) : (setErr e s).busy = s.busy := rfl
@[simp] theorem setErr_done (e : ErrCode) (s : State) : (setErr e s).done = s.done := rfl
@[simp] theorem setErr_err (e : ErrCode) (s : State) : (setErr e s).err = errBits e := rfl
@[simp] theorem setErr_busyWr (e : ErrCode) (s : State) : (setErr e s).busyWr = s.busyWr := rfl
@[simp] theorem setErr_irqEn (e : ErrCode) (s : State) : (setErr e s).irqEn = s.irqEn := rfl
@[simp] theorem setErr_ibufLen (e : ErrCode) (s : State) : (setErr e s).ibufLen = s.ibufLen := rfl
@[simp] theorem setErr_obufLen (e : ErrCode) (s : State) : (setErr e s).obufLen = s.obufLen := rfl
@[simp] theorem setErr_encCat (e : ErrCode) (s : State) : (setErr e s).encCat = s.encCat := rfl
@[simp] theorem setErr_encFn (e : ErrCode) (s : State) : (setErr e s).encFn = s.encFn := rfl
@[simp] theorem setErr_cksumResult (e : ErrCode) (s : State) : (setErr e s).cksumResult = s.cksumResult := rfl
@[simp] theorem setErr_decKind (e : ErrCode) (s : State) : (setErr e s).decKind = s.decKind := rfl
@[simp] theorem setErr_decCount (e : ErrCode) (s : State) : (setErr e s).decCount = s.decCount := rfl
@[simp] theorem setErr_decField (e : ErrCode) (s : State) : (setErr e s).decField = s.decField := rfl
@[simp] theorem setErr_mem (e : ErrCode) (s : State) : (setErr e s).mem = s.mem := rfl
@[simp] theorem setErr_inputs (e : ErrCode) (s : State) : (setErr e s).inputs = s.inputs := rfl
@[simp] theorem setErr_resp (e : ErrCode) (s : State) : (setErr e s).resp = s.resp := rfl
@[simp] theorem setErr_epoch (e : ErrCode) (s : State) : (setErr e s).epoch = s.epoch := rfl

@[simp] theorem failWith_cmdOp (e : ErrCode) (s : State) : (failWith e s).cmdOp = s.cmdOp := rfl
@[simp] theorem failWith_busy (e : ErrCode) (s : State) : (failWith e s).busy = s.busy := rfl
@[simp] theorem failWith_done (e : ErrCode) (s : State) : (failWith e s).done = s.done := rfl
@[simp] theorem failWith_err (e : ErrCode) (s : State) : (failWith e s).err = errBits e := rfl
@[simp] theorem failWith_busyWr (e : ErrCode) (s : State) : (failWith e s).busyWr = s.busyWr := rfl
@[simp] theorem failWith_irqEn (e : ErrCode) (s : State) : (failWith e s).irqEn = s.irqEn := rfl
@[simp] theorem failWith_ibufLen (e : ErrCode) (s : State) : (failWith e s).ibufLen = s.ibufLen := rfl
@[simp] theorem failWith_obufLen (e : ErrCode) (s : State) : (failWith e s).obufLen = s.obufLen := rfl
@[simp] theorem failWith_encCat (e : ErrCode) (s : State) : (failWith e s).encCat = s.encCat := rfl
@[simp] theorem failWith_encFn (e : ErrCode) (s : State) : (failWith e s).encFn = s.encFn := rfl
@[simp] theorem failWith_cksumResult (e : ErrCode) (s : State) : (failWith e s).cksumResult = s.cksumResult := rfl
@[simp] theorem failWith_decKind (e : ErrCode) (s : State) : (failWith e s).decKind = s.decKind := rfl
@[simp] theorem failWith_decCount (e : ErrCode) (s : State) : (failWith e s).decCount = s.decCount := rfl
@[simp] theorem failWith_decField (e : ErrCode) (s : State) : (failWith e s).decField = s.decField := rfl
@[simp] theorem failWith_mem (e : ErrCode) (s : State) : (failWith e s).mem = s.mem := rfl
@[simp] theorem failWith_inputs (e : ErrCode) (s : State) : (failWith e s).inputs = s.inputs := rfl
@[simp] theorem failWith_resp (e : ErrCode) (s : State) : (failWith e s).resp = s.resp := rfl
@[simp] theorem failWith_epoch (e : ErrCode) (s : State) : (failWith e s).epoch = s.epoch := rfl

@[simp] theorem markDropped_cmdOp (s : State) : (markDropped s).cmdOp = s.cmdOp := rfl
@[simp] theorem markDropped_busy (s : State) : (markDropped s).busy = s.busy := rfl
@[simp] theorem markDropped_done (s : State) : (markDropped s).done = s.done := rfl
@[simp] theorem markDropped_err (s : State) : (markDropped s).err = s.err := rfl
@[simp] theorem markDropped_busyWr (s : State) : (markDropped s).busyWr = true := rfl
@[simp] theorem markDropped_irqEn (s : State) : (markDropped s).irqEn = s.irqEn := rfl
@[simp] theorem markDropped_ibufLen (s : State) : (markDropped s).ibufLen = s.ibufLen := rfl
@[simp] theorem markDropped_obufLen (s : State) : (markDropped s).obufLen = s.obufLen := rfl
@[simp] theorem markDropped_encCat (s : State) : (markDropped s).encCat = s.encCat := rfl
@[simp] theorem markDropped_encFn (s : State) : (markDropped s).encFn = s.encFn := rfl
@[simp] theorem markDropped_cksumResult (s : State) : (markDropped s).cksumResult = s.cksumResult := rfl
@[simp] theorem markDropped_decKind (s : State) : (markDropped s).decKind = s.decKind := rfl
@[simp] theorem markDropped_decCount (s : State) : (markDropped s).decCount = s.decCount := rfl
@[simp] theorem markDropped_decField (s : State) : (markDropped s).decField = s.decField := rfl
@[simp] theorem markDropped_mem (s : State) : (markDropped s).mem = s.mem := rfl
@[simp] theorem markDropped_inputs (s : State) : (markDropped s).inputs = s.inputs := rfl
@[simp] theorem markDropped_resp (s : State) : (markDropped s).resp = s.resp := rfl
@[simp] theorem markDropped_epoch (s : State) : (markDropped s).epoch = s.epoch := rfl

@[simp] theorem clearStatusBits_cmdOp (d b : Bool) (s : State) : (clearStatusBits d b s).cmdOp = s.cmdOp := rfl
@[simp] theorem clearStatusBits_busy (d b : Bool) (s : State) : (clearStatusBits d b s).busy = s.busy := rfl
@[simp] theorem clearStatusBits_done (d b : Bool) (s : State) : (clearStatusBits d b s).done = (s.done && !d) := rfl
@[simp] theorem clearStatusBits_err (d b : Bool) (s : State) : (clearStatusBits d b s).err = s.err := rfl
@[simp] theorem clearStatusBits_busyWr (d b : Bool) (s : State) : (clearStatusBits d b s).busyWr = (s.busyWr && !b) := rfl
@[simp] theorem clearStatusBits_irqEn (d b : Bool) (s : State) : (clearStatusBits d b s).irqEn = s.irqEn := rfl
@[simp] theorem clearStatusBits_ibufLen (d b : Bool) (s : State) : (clearStatusBits d b s).ibufLen = s.ibufLen := rfl
@[simp] theorem clearStatusBits_obufLen (d b : Bool) (s : State) : (clearStatusBits d b s).obufLen = s.obufLen := rfl
@[simp] theorem clearStatusBits_encCat (d b : Bool) (s : State) : (clearStatusBits d b s).encCat = s.encCat := rfl
@[simp] theorem clearStatusBits_encFn (d b : Bool) (s : State) : (clearStatusBits d b s).encFn = s.encFn := rfl
@[simp] theorem clearStatusBits_cksumResult (d b : Bool) (s : State) : (clearStatusBits d b s).cksumResult = s.cksumResult := rfl
@[simp] theorem clearStatusBits_decKind (d b : Bool) (s : State) : (clearStatusBits d b s).decKind = s.decKind := rfl
@[simp] theorem clearStatusBits_decCount (d b : Bool) (s : State) : (clearStatusBits d b s).decCount = s.decCount := rfl
@[simp] theorem clearStatusBits_decField (d b : Bool) (s : State) : (clearStatusBits d b s).decField = s.decField := rfl
@[simp] theorem clearStatusBits_mem (d b : Bool) (s : State) : (clearStatusBits d b s).mem = s.mem := rfl
@[simp] theorem clearStatusBits_inputs (d b : Bool) (s : State) : (clearStatusBits d b s).inputs = s.inputs := rfl
@[simp] theorem clearStatusBits_resp (d b : Bool) (s : State) : (clearStatusBits d b s).resp = s.resp := rfl
@[simp] theorem clearStatusBits_epoch (d b : Bool) (s : State) : (clearStatusBits d b s).epoch = s.epoch := rfl

@[simp] theorem writeByte_cmdOp (a : Nat) (v : Byte) (s : State) : (s.writeByte a v).cmdOp = s.cmdOp := rfl
@[simp] theorem writeByte_busy (a : Nat) (v : Byte) (s : State) : (s.writeByte a v).busy = s.busy := rfl
@[simp] theorem writeByte_done (a : Nat) (v : Byte) (s : State) : (s.writeByte a v).done = s.done := rfl
@[simp] theorem writeByte_err (a : Nat) (v : Byte) (s : State) : (s.writeByte a v).err = s.err := rfl
@[simp] theorem writeByte_busyWr (a : Nat) (v : Byte) (s : State) : (s.writeByte a v).busyWr = s.busyWr := rfl
@[simp] theorem writeByte_irqEn (a : Nat) (v : Byte) (s : State) : (s.writeByte a v).irqEn = s.irqEn := rfl
@[simp] theorem writeByte_ibufLen (a : Nat) (v : Byte) (s : State) : (s.writeByte a v).ibufLen = s.ibufLen := rfl
@[simp] theorem writeByte_obufLen (a : Nat) (v : Byte) (s : State) : (s.writeByte a v).obufLen = s.obufLen := rfl
@[simp] theorem writeByte_encCat (a : Nat) (v : Byte) (s : State) : (s.writeByte a v).encCat = s.encCat := rfl
@[simp] theorem writeByte_encFn (a : Nat) (v : Byte) (s : State) : (s.writeByte a v).encFn = s.encFn := rfl
@[simp] theorem writeByte_cksumResult (a : Nat) (v : Byte) (s : State) : (s.writeByte a v).cksumResult = s.cksumResult := rfl
@[simp] theorem writeByte_decKind (a : Nat) (v : Byte) (s : State) : (s.writeByte a v).decKind = s.decKind := rfl
@[simp] theorem writeByte_decCount (a : Nat) (v : Byte) (s : State) : (s.writeByte a v).decCount = s.decCount := rfl
@[simp] theorem writeByte_decField (a : Nat) (v : Byte) (s : State) : (s.writeByte a v).decField = s.decField := rfl
@[simp] theorem writeByte_mem (a : Nat) (v : Byte) (s : State) : (s.writeByte a v).mem = Memory.write s.mem a v := rfl
@[simp] theorem writeByte_inputs (a : Nat) (v : Byte) (s : State) : (s.writeByte a v).inputs = s.inputs := rfl
@[simp] theorem writeByte_resp (a : Nat) (v : Byte) (s : State) : (s.writeByte a v).resp = s.resp := rfl
@[simp] theorem writeByte_epoch (a : Nat) (v : Byte) (s : State) : (s.writeByte a v).epoch = s.epoch := rfl

@[simp] theorem writeObuf_cmdOp (f : List Byte) (s : State) : (s.writeObuf f).cmdOp = s.cmdOp := rfl
@[simp] theorem writeObuf_busy (f : List Byte) (s : State) : (s.writeObuf f).busy = s.busy := rfl
@[simp] theorem writeObuf_done (f : List Byte) (s : State) : (s.writeObuf f).done = s.done := rfl
@[simp] theorem writeObuf_err (f : List Byte) (s : State) : (s.writeObuf f).err = s.err := rfl
@[simp] theorem writeObuf_busyWr (f : List Byte) (s : State) : (s.writeObuf f).busyWr = s.busyWr := rfl
@[simp] theorem writeObuf_irqEn (f : List Byte) (s : State) : (s.writeObuf f).irqEn = s.irqEn := rfl
@[simp] theorem writeObuf_ibufLen (f : List Byte) (s : State) : (s.writeObuf f).ibufLen = s.ibufLen := rfl
@[simp] theorem writeObuf_obufLen (f : List Byte) (s : State) : (s.writeObuf f).obufLen = s.obufLen := rfl
@[simp] theorem writeObuf_encCat (f : List Byte) (s : State) : (s.writeObuf f).encCat = s.encCat := rfl
@[simp] theorem writeObuf_encFn (f : List Byte) (s : State) : (s.writeObuf f).encFn = s.encFn := rfl
@[simp] theorem writeObuf_cksumResult (f : List Byte) (s : State) : (s.writeObuf f).cksumResult = s.cksumResult := rfl
@[simp] theorem writeObuf_decKind (f : List Byte) (s : State) : (s.writeObuf f).decKind = s.decKind := rfl
@[simp] theorem writeObuf_decCount (f : List Byte) (s : State) : (s.writeObuf f).decCount = s.decCount := rfl
@[simp] theorem writeObuf_decField (f : List Byte) (s : State) : (s.writeObuf f).decField = s.decField := rfl
@[simp] theorem writeObuf_mem (f : List Byte) (s : State) : (s.writeObuf f).mem = Memory.writeBytes s.mem (obufOffset 0) f := rfl
@[simp] theorem writeObuf_inputs (f : List Byte) (s : State) : (s.writeObuf f).inputs = s.inputs := rfl
@[simp] theorem writeObuf_resp (f : List Byte) (s : State) : (s.writeObuf f).resp = s.resp := rfl
@[simp] theorem writeObuf_epoch (f : List Byte) (s : State) : (s.writeObuf f).epoch = s.epoch := rfl

@[simp] theorem respond_cmdOp (r : Response) (s : State) : (respond r s).cmdOp = s.cmdOp := rfl
@[simp] theorem respond_busy (r : Response) (s : State) : (respond r s).busy = s.busy := rfl
@[simp] theorem respond_done (r : Response) (s : State) : (respond r s).done = s.done := rfl
@[simp] theorem respond_err (r : Response) (s : State) : (respond r s).err = s.err := rfl
@[simp] theorem respond_busyWr (r : Response) (s : State) : (respond r s).busyWr = s.busyWr := rfl
@[simp] theorem respond_irqEn (r : Response) (s : State) : (respond r s).irqEn = s.irqEn := rfl
@[simp] theorem respond_ibufLen (r : Response) (s : State) : (respond r s).ibufLen = s.ibufLen := rfl
@[simp] theorem respond_obufLen (r : Response) (s : State) : (respond r s).obufLen = s.obufLen := rfl
@[simp] theorem respond_encCat (r : Response) (s : State) : (respond r s).encCat = s.encCat := rfl
@[simp] theorem respond_encFn (r : Response) (s : State) : (respond r s).encFn = s.encFn := rfl
@[simp] theorem respond_cksumResult (r : Response) (s : State) : (respond r s).cksumResult = s.cksumResult := rfl
@[simp] theorem respond_decKind (r : Response) (s : State) : (respond r s).decKind = s.decKind := rfl
@[simp] theorem respond_decCount (r : Response) (s : State) : (respond r s).decCount = s.decCount := rfl
@[simp] theorem respond_decField (r : Response) (s : State) : (respond r s).decField = s.decField := rfl
@[simp] theorem respond_mem (r : Response) (s : State) : (respond r s).mem = s.mem := rfl
@[simp] theorem respond_inputs (r : Response) (s : State) : (respond r s).inputs = s.inputs := rfl
@[simp] theorem respond_resp (r : Response) (s : State) : (respond r s).resp = r := rfl
@[simp] theorem respond_epoch (r : Response) (s : State) : (respond r s).epoch = s.epoch := rfl

@[simp] theorem cmdStart_cmdOp (op : BitVec 3) (s : State) : (cmdStart op s).cmdOp = op := rfl
@[simp] theorem cmdStart_busy (op : BitVec 3) (s : State) : (cmdStart op s).busy = true := rfl
@[simp] theorem cmdStart_done (op : BitVec 3) (s : State) : (cmdStart op s).done = false := rfl
@[simp] theorem cmdStart_err (op : BitVec 3) (s : State) : (cmdStart op s).err = 0 := rfl
@[simp] theorem cmdStart_busyWr (op : BitVec 3) (s : State) : (cmdStart op s).busyWr = s.busyWr := rfl
@[simp] theorem cmdStart_irqEn (op : BitVec 3) (s : State) : (cmdStart op s).irqEn = s.irqEn := rfl
@[simp] theorem cmdStart_ibufLen (op : BitVec 3) (s : State) : (cmdStart op s).ibufLen = s.ibufLen := rfl
@[simp] theorem cmdStart_obufLen (op : BitVec 3) (s : State) : (cmdStart op s).obufLen = s.obufLen := rfl
@[simp] theorem cmdStart_encCat (op : BitVec 3) (s : State) : (cmdStart op s).encCat = s.encCat := rfl
@[simp] theorem cmdStart_encFn (op : BitVec 3) (s : State) : (cmdStart op s).encFn = s.encFn := rfl
@[simp] theorem cmdStart_cksumResult (op : BitVec 3) (s : State) : (cmdStart op s).cksumResult = s.cksumResult := rfl
@[simp] theorem cmdStart_decKind (op : BitVec 3) (s : State) : (cmdStart op s).decKind = s.decKind := rfl
@[simp] theorem cmdStart_decCount (op : BitVec 3) (s : State) : (cmdStart op s).decCount = s.decCount := rfl
@[simp] theorem cmdStart_decField (op : BitVec 3) (s : State) : (cmdStart op s).decField = s.decField := rfl
@[simp] theorem cmdStart_mem (op : BitVec 3) (s : State) : (cmdStart op s).mem = s.mem := rfl
@[simp] theorem cmdStart_inputs (op : BitVec 3) (s : State) : (cmdStart op s).inputs = s.inputs := rfl
@[simp] theorem cmdStart_resp (op : BitVec 3) (s : State) : (cmdStart op s).resp = s.resp := rfl
@[simp] theorem cmdStart_epoch (op : BitVec 3) (s : State) : (cmdStart op s).epoch = s.epoch := rfl

@[simp] theorem softReset_cmdOp (s : State) : (softReset s).cmdOp = 0 := rfl
@[simp] theorem softReset_busy (s : State) : (softReset s).busy = false := rfl
@[simp] theorem softReset_done (s : State) : (softReset s).done = false := rfl
@[simp] theorem softReset_err (s : State) : (softReset s).err = 0 := rfl
@[simp] theorem softReset_busyWr (s : State) : (softReset s).busyWr = false := rfl
@[simp] theorem softReset_irqEn (s : State) : (softReset s).irqEn = false := rfl
@[simp] theorem softReset_ibufLen (s : State) : (softReset s).ibufLen = 0 := rfl
@[simp] theorem softReset_obufLen (s : State) : (softReset s).obufLen = 0 := rfl
@[simp] theorem softReset_encCat (s : State) : (softReset s).encCat = 0 := rfl
@[simp] theorem softReset_encFn (s : State) : (softReset s).encFn = 0 := rfl
@[simp] theorem softReset_cksumResult (s : State) : (softReset s).cksumResult = 0 := rfl
@[simp] theorem softReset_decKind (s : State) : (softReset s).decKind = 0 := rfl
@[simp] theorem softReset_decCount (s : State) : (softReset s).decCount = 0 := rfl
@[simp] theorem softReset_decField (s : State) : (softReset s).decField = #v[0, 0, 0, 0, 0, 0, 0, 0] := rfl
@[simp] theorem softReset_mem (s : State) : (softReset s).mem = s.mem := rfl
@[simp] theorem softReset_inputs (s : State) : (softReset s).inputs = s.inputs := rfl
@[simp] theorem softReset_resp (s : State) : (softReset s).resp = s.resp := rfl
@[simp] theorem softReset_epoch (s : State) : (softReset s).epoch = s.epoch := rfl

@[simp] theorem powerOnReset_cmdOp (s : State) : (powerOnReset s).cmdOp = 0 := rfl
@[simp] theorem powerOnReset_busy (s : State) : (powerOnReset s).busy = false := rfl
@[simp] theorem powerOnReset_done (s : State) : (powerOnReset s).done = false := rfl
@[simp] theorem powerOnReset_err (s : State) : (powerOnReset s).err = 0 := rfl
@[simp] theorem powerOnReset_busyWr (s : State) : (powerOnReset s).busyWr = false := rfl
@[simp] theorem powerOnReset_irqEn (s : State) : (powerOnReset s).irqEn = false := rfl
@[simp] theorem powerOnReset_ibufLen (s : State) : (powerOnReset s).ibufLen = 0 := rfl
@[simp] theorem powerOnReset_obufLen (s : State) : (powerOnReset s).obufLen = 0 := rfl
@[simp] theorem powerOnReset_encCat (s : State) : (powerOnReset s).encCat = 0 := rfl
@[simp] theorem powerOnReset_encFn (s : State) : (powerOnReset s).encFn = 0 := rfl
@[simp] theorem powerOnReset_cksumResult (s : State) : (powerOnReset s).cksumResult = 0 := rfl
@[simp] theorem powerOnReset_decKind (s : State) : (powerOnReset s).decKind = 0 := rfl
@[simp] theorem powerOnReset_decCount (s : State) : (powerOnReset s).decCount = 0 := rfl
@[simp] theorem powerOnReset_decField (s : State) : (powerOnReset s).decField = #v[0, 0, 0, 0, 0, 0, 0, 0] := rfl
@[simp] theorem powerOnReset_mem (s : State) : (powerOnReset s).mem = [] := rfl
@[simp] theorem powerOnReset_inputs (s : State) : (powerOnReset s).inputs = s.inputs := rfl
@[simp] theorem powerOnReset_resp (s : State) : (powerOnReset s).resp = .none := rfl
@[simp] theorem powerOnReset_epoch (s : State) : (powerOnReset s).epoch = s.epoch + 1 := rfl

@[simp] theorem setIrqEn_cmdOp (b : Bool) (s : State) : (setIrqEn b s).cmdOp = s.cmdOp := rfl
@[simp] theorem setIrqEn_busy (b : Bool) (s : State) : (setIrqEn b s).busy = s.busy := rfl
@[simp] theorem setIrqEn_done (b : Bool) (s : State) : (setIrqEn b s).done = s.done := rfl
@[simp] theorem setIrqEn_err (b : Bool) (s : State) : (setIrqEn b s).err = s.err := rfl
@[simp] theorem setIrqEn_busyWr (b : Bool) (s : State) : (setIrqEn b s).busyWr = s.busyWr := rfl
@[simp] theorem setIrqEn_irqEn (b : Bool) (s : State) : (setIrqEn b s).irqEn = b := rfl
@[simp] theorem setIrqEn_ibufLen (b : Bool) (s : State) : (setIrqEn b s).ibufLen = s.ibufLen := rfl
@[simp] theorem setIrqEn_obufLen (b : Bool) (s : State) : (setIrqEn b s).obufLen = s.obufLen := rfl
@[simp] theorem setIrqEn_encCat (b : Bool) (s : State) : (setIrqEn b s).encCat = s.encCat := rfl
@[simp] theorem setIrqEn_encFn (b : Bool) (s : State) : (setIrqEn b s).encFn = s.encFn := rfl
@[simp] theorem setIrqEn_cksumResult (b : Bool) (s : State) : (setIrqEn b s).cksumResult = s.cksumResult := rfl
@[simp] theorem setIrqEn_decKind (b : Bool) (s : State) : (setIrqEn b s).decKind = s.decKind := rfl
@[simp] theorem setIrqEn_decCount (b : Bool) (s : State) : (setIrqEn b s).decCount = s.decCount := rfl
@[simp] theorem setIrqEn_decField (b : Bool) (s : State) : (setIrqEn b s).decField = s.decField := rfl
@[simp] theorem setIrqEn_mem (b : Bool) (s : State) : (setIrqEn b s).mem = s.mem := rfl
@[simp] theorem setIrqEn_inputs (b : Bool) (s : State) : (setIrqEn b s).inputs = s.inputs := rfl
@[simp] theorem setIrqEn_resp (b : Bool) (s : State) : (setIrqEn b s).resp = s.resp := rfl
@[simp] theorem setIrqEn_epoch (b : Bool) (s : State) : (setIrqEn b s).epoch = s.epoch := rfl

@[simp] theorem setIbufLen_cmdOp (n : BitVec 16) (s : State) : (setIbufLen n s).cmdOp = s.cmdOp := rfl
@[simp] theorem setIbufLen_busy (n : BitVec 16) (s : State) : (setIbufLen n s).busy = s.busy := rfl
@[simp] theorem setIbufLen_done (n : BitVec 16) (s : State) : (setIbufLen n s).done = s.done := rfl
@[simp] theorem setIbufLen_err (n : BitVec 16) (s : State) : (setIbufLen n s).err = s.err := rfl
@[simp] theorem setIbufLen_busyWr (n : BitVec 16) (s : State) : (setIbufLen n s).busyWr = s.busyWr := rfl
@[simp] theorem setIbufLen_irqEn (n : BitVec 16) (s : State) : (setIbufLen n s).irqEn = s.irqEn := rfl
@[simp] theorem setIbufLen_ibufLen (n : BitVec 16) (s : State) : (setIbufLen n s).ibufLen = n := rfl
@[simp] theorem setIbufLen_obufLen (n : BitVec 16) (s : State) : (setIbufLen n s).obufLen = s.obufLen := rfl
@[simp] theorem setIbufLen_encCat (n : BitVec 16) (s : State) : (setIbufLen n s).encCat = s.encCat := rfl
@[simp] theorem setIbufLen_encFn (n : BitVec 16) (s : State) : (setIbufLen n s).encFn = s.encFn := rfl
@[simp] theorem setIbufLen_cksumResult (n : BitVec 16) (s : State) : (setIbufLen n s).cksumResult = s.cksumResult := rfl
@[simp] theorem setIbufLen_decKind (n : BitVec 16) (s : State) : (setIbufLen n s).decKind = s.decKind := rfl
@[simp] theorem setIbufLen_decCount (n : BitVec 16) (s : State) : (setIbufLen n s).decCount = s.decCount := rfl
@[simp] theorem setIbufLen_decField (n : BitVec 16) (s : State) : (setIbufLen n s).decField = s.decField := rfl
@[simp] theorem setIbufLen_mem (n : BitVec 16) (s : State) : (setIbufLen n s).mem = s.mem := rfl
@[simp] theorem setIbufLen_inputs (n : BitVec 16) (s : State) : (setIbufLen n s).inputs = s.inputs := rfl
@[simp] theorem setIbufLen_resp (n : BitVec 16) (s : State) : (setIbufLen n s).resp = s.resp := rfl
@[simp] theorem setIbufLen_epoch (n : BitVec 16) (s : State) : (setIbufLen n s).epoch = s.epoch := rfl

@[simp] theorem setEncCat_cmdOp (v : Byte) (s : State) : (setEncCat v s).cmdOp = s.cmdOp := rfl
@[simp] theorem setEncCat_busy (v : Byte) (s : State) : (setEncCat v s).busy = s.busy := rfl
@[simp] theorem setEncCat_done (v : Byte) (s : State) : (setEncCat v s).done = s.done := rfl
@[simp] theorem setEncCat_err (v : Byte) (s : State) : (setEncCat v s).err = s.err := rfl
@[simp] theorem setEncCat_busyWr (v : Byte) (s : State) : (setEncCat v s).busyWr = s.busyWr := rfl
@[simp] theorem setEncCat_irqEn (v : Byte) (s : State) : (setEncCat v s).irqEn = s.irqEn := rfl
@[simp] theorem setEncCat_ibufLen (v : Byte) (s : State) : (setEncCat v s).ibufLen = s.ibufLen := rfl
@[simp] theorem setEncCat_obufLen (v : Byte) (s : State) : (setEncCat v s).obufLen = s.obufLen := rfl
@[simp] theorem setEncCat_encCat (v : Byte) (s : State) : (setEncCat v s).encCat = v := rfl
@[simp] theorem setEncCat_encFn (v : Byte) (s : State) : (setEncCat v s).encFn = s.encFn := rfl
@[simp] theorem setEncCat_cksumResult (v : Byte) (s : State) : (setEncCat v s).cksumResult = s.cksumResult := rfl
@[simp] theorem setEncCat_decKind (v : Byte) (s : State) : (setEncCat v s).decKind = s.decKind := rfl
@[simp] theorem setEncCat_decCount (v : Byte) (s : State) : (setEncCat v s).decCount = s.decCount := rfl
@[simp] theorem setEncCat_decField (v : Byte) (s : State) : (setEncCat v s).decField = s.decField := rfl
@[simp] theorem setEncCat_mem (v : Byte) (s : State) : (setEncCat v s).mem = s.mem := rfl
@[simp] theorem setEncCat_inputs (v : Byte) (s : State) : (setEncCat v s).inputs = s.inputs := rfl
@[simp] theorem setEncCat_resp (v : Byte) (s : State) : (setEncCat v s).resp = s.resp := rfl
@[simp] theorem setEncCat_epoch (v : Byte) (s : State) : (setEncCat v s).epoch = s.epoch := rfl

@[simp] theorem setEncFn_cmdOp (v : Byte) (s : State) : (setEncFn v s).cmdOp = s.cmdOp := rfl
@[simp] theorem setEncFn_busy (v : Byte) (s : State) : (setEncFn v s).busy = s.busy := rfl
@[simp] theorem setEncFn_done (v : Byte) (s : State) : (setEncFn v s).done = s.done := rfl
@[simp] theorem setEncFn_err (v : Byte) (s : State) : (setEncFn v s).err = s.err := rfl
@[simp] theorem setEncFn_busyWr (v : Byte) (s : State) : (setEncFn v s).busyWr = s.busyWr := rfl
@[simp] theorem setEncFn_irqEn (v : Byte) (s : State) : (setEncFn v s).irqEn = s.irqEn := rfl
@[simp] theorem setEncFn_ibufLen (v : Byte) (s : State) : (setEncFn v s).ibufLen = s.ibufLen := rfl
@[simp] theorem setEncFn_obufLen (v : Byte) (s : State) : (setEncFn v s).obufLen = s.obufLen := rfl
@[simp] theorem setEncFn_encCat (v : Byte) (s : State) : (setEncFn v s).encCat = s.encCat := rfl
@[simp] theorem setEncFn_encFn (v : Byte) (s : State) : (setEncFn v s).encFn = v := rfl
@[simp] theorem setEncFn_cksumResult (v : Byte) (s : State) : (setEncFn v s).cksumResult = s.cksumResult := rfl
@[simp] theorem setEncFn_decKind (v : Byte) (s : State) : (setEncFn v s).decKind = s.decKind := rfl
@[simp] theorem setEncFn_decCount (v : Byte) (s : State) : (setEncFn v s).decCount = s.decCount := rfl
@[simp] theorem setEncFn_decField (v : Byte) (s : State) : (setEncFn v s).decField = s.decField := rfl
@[simp] theorem setEncFn_mem (v : Byte) (s : State) : (setEncFn v s).mem = s.mem := rfl
@[simp] theorem setEncFn_inputs (v : Byte) (s : State) : (setEncFn v s).inputs = s.inputs := rfl
@[simp] theorem setEncFn_resp (v : Byte) (s : State) : (setEncFn v s).resp = s.resp := rfl
@[simp] theorem setEncFn_epoch (v : Byte) (s : State) : (setEncFn v s).epoch = s.epoch := rfl

@[simp] theorem setObufLen_cmdOp (n : BitVec 16) (s : State) : (setObufLen n s).cmdOp = s.cmdOp := rfl
@[simp] theorem setObufLen_busy (n : BitVec 16) (s : State) : (setObufLen n s).busy = s.busy := rfl
@[simp] theorem setObufLen_done (n : BitVec 16) (s : State) : (setObufLen n s).done = s.done := rfl
@[simp] theorem setObufLen_err (n : BitVec 16) (s : State) : (setObufLen n s).err = s.err := rfl
@[simp] theorem setObufLen_busyWr (n : BitVec 16) (s : State) : (setObufLen n s).busyWr = s.busyWr := rfl
@[simp] theorem setObufLen_irqEn (n : BitVec 16) (s : State) : (setObufLen n s).irqEn = s.irqEn := rfl
@[simp] theorem setObufLen_ibufLen (n : BitVec 16) (s : State) : (setObufLen n s).ibufLen = s.ibufLen := rfl
@[simp] theorem setObufLen_obufLen (n : BitVec 16) (s : State) : (setObufLen n s).obufLen = n := rfl
@[simp] theorem setObufLen_encCat (n : BitVec 16) (s : State) : (setObufLen n s).encCat = s.encCat := rfl
@[simp] theorem setObufLen_encFn (n : BitVec 16) (s : State) : (setObufLen n s).encFn = s.encFn := rfl
@[simp] theorem setObufLen_cksumResult (n : BitVec 16) (s : State) : (setObufLen n s).cksumResult = s.cksumResult := rfl
@[simp] theorem setObufLen_decKind (n : BitVec 16) (s : State) : (setObufLen n s).decKind = s.decKind := rfl
@[simp] theorem setObufLen_decCount (n : BitVec 16) (s : State) : (setObufLen n s).decCount = s.decCount := rfl
@[simp] theorem setObufLen_decField (n : BitVec 16) (s : State) : (setObufLen n s).decField = s.decField := rfl
@[simp] theorem setObufLen_mem (n : BitVec 16) (s : State) : (setObufLen n s).mem = s.mem := rfl
@[simp] theorem setObufLen_inputs (n : BitVec 16) (s : State) : (setObufLen n s).inputs = s.inputs := rfl
@[simp] theorem setObufLen_resp (n : BitVec 16) (s : State) : (setObufLen n s).resp = s.resp := rfl
@[simp] theorem setObufLen_epoch (n : BitVec 16) (s : State) : (setObufLen n s).epoch = s.epoch := rfl

@[simp] theorem setCksumResult_cmdOp (v : Byte) (s : State) : (setCksumResult v s).cmdOp = s.cmdOp := rfl
@[simp] theorem setCksumResult_busy (v : Byte) (s : State) : (setCksumResult v s).busy = s.busy := rfl
@[simp] theorem setCksumResult_done (v : Byte) (s : State) : (setCksumResult v s).done = s.done := rfl
@[simp] theorem setCksumResult_err (v : Byte) (s : State) : (setCksumResult v s).err = s.err := rfl
@[simp] theorem setCksumResult_busyWr (v : Byte) (s : State) : (setCksumResult v s).busyWr = s.busyWr := rfl
@[simp] theorem setCksumResult_irqEn (v : Byte) (s : State) : (setCksumResult v s).irqEn = s.irqEn := rfl
@[simp] theorem setCksumResult_ibufLen (v : Byte) (s : State) : (setCksumResult v s).ibufLen = s.ibufLen := rfl
@[simp] theorem setCksumResult_obufLen (v : Byte) (s : State) : (setCksumResult v s).obufLen = s.obufLen := rfl
@[simp] theorem setCksumResult_encCat (v : Byte) (s : State) : (setCksumResult v s).encCat = s.encCat := rfl
@[simp] theorem setCksumResult_encFn (v : Byte) (s : State) : (setCksumResult v s).encFn = s.encFn := rfl
@[simp] theorem setCksumResult_cksumResult (v : Byte) (s : State) : (setCksumResult v s).cksumResult = v := rfl
@[simp] theorem setCksumResult_decKind (v : Byte) (s : State) : (setCksumResult v s).decKind = s.decKind := rfl
@[simp] theorem setCksumResult_decCount (v : Byte) (s : State) : (setCksumResult v s).decCount = s.decCount := rfl
@[simp] theorem setCksumResult_decField (v : Byte) (s : State) : (setCksumResult v s).decField = s.decField := rfl
@[simp] theorem setCksumResult_mem (v : Byte) (s : State) : (setCksumResult v s).mem = s.mem := rfl
@[simp] theorem setCksumResult_inputs (v : Byte) (s : State) : (setCksumResult v s).inputs = s.inputs := rfl
@[simp] theorem setCksumResult_resp (v : Byte) (s : State) : (setCksumResult v s).resp = s.resp := rfl
@[simp] theorem setCksumResult_epoch (v : Byte) (s : State) : (setCksumResult v s).epoch = s.epoch := rfl

@[simp] theorem setDecoded_cmdOp (k : BitVec 4) (vs : List Byte) (s : State) : (setDecoded k vs s).cmdOp = s.cmdOp := rfl
@[simp] theorem setDecoded_busy (k : BitVec 4) (vs : List Byte) (s : State) : (setDecoded k vs s).busy = s.busy := rfl
@[simp] theorem setDecoded_done (k : BitVec 4) (vs : List Byte) (s : State) : (setDecoded k vs s).done = s.done := rfl
@[simp] theorem setDecoded_err (k : BitVec 4) (vs : List Byte) (s : State) : (setDecoded k vs s).err = s.err := rfl
@[simp] theorem setDecoded_busyWr (k : BitVec 4) (vs : List Byte) (s : State) : (setDecoded k vs s).busyWr = s.busyWr := rfl
@[simp] theorem setDecoded_irqEn (k : BitVec 4) (vs : List Byte) (s : State) : (setDecoded k vs s).irqEn = s.irqEn := rfl
@[simp] theorem setDecoded_ibufLen (k : BitVec 4) (vs : List Byte) (s : State) : (setDecoded k vs s).ibufLen = s.ibufLen := rfl
@[simp] theorem setDecoded_obufLen (k : BitVec 4) (vs : List Byte) (s : State) : (setDecoded k vs s).obufLen = s.obufLen := rfl
@[simp] theorem setDecoded_encCat (k : BitVec 4) (vs : List Byte) (s : State) : (setDecoded k vs s).encCat = s.encCat := rfl
@[simp] theorem setDecoded_encFn (k : BitVec 4) (vs : List Byte) (s : State) : (setDecoded k vs s).encFn = s.encFn := rfl
@[simp] theorem setDecoded_cksumResult (k : BitVec 4) (vs : List Byte) (s : State) : (setDecoded k vs s).cksumResult = s.cksumResult := rfl
@[simp] theorem setDecoded_decKind (k : BitVec 4) (vs : List Byte) (s : State) : (setDecoded k vs s).decKind = k := rfl
@[simp] theorem setDecoded_decCount (k : BitVec 4) (vs : List Byte) (s : State) : (setDecoded k vs s).decCount = BitVec.ofNat 4 vs.length := rfl
@[simp] theorem setDecoded_decField (k : BitVec 4) (vs : List Byte) (s : State) : (setDecoded k vs s).decField = #v[vs.getD 0 0, vs.getD 1 0, vs.getD 2 0, vs.getD 3 0, vs.getD 4 0, vs.getD 5 0, vs.getD 6 0, vs.getD 7 0] := rfl
@[simp] theorem setDecoded_mem (k : BitVec 4) (vs : List Byte) (s : State) : (setDecoded k vs s).mem = s.mem := rfl
@[simp] theorem setDecoded_inputs (k : BitVec 4) (vs : List Byte) (s : State) : (setDecoded k vs s).inputs = s.inputs := rfl
@[simp] theorem setDecoded_resp (k : BitVec 4) (vs : List Byte) (s : State) : (setDecoded k vs s).resp = s.resp := rfl
@[simp] theorem setDecoded_epoch (k : BitVec 4) (vs : List Byte) (s : State) : (setDecoded k vs s).epoch = s.epoch := rfl

@[simp] theorem finish_cmdOp (s : State) : (finish s).cmdOp = s.cmdOp := rfl
@[simp] theorem finish_busy (s : State) : (finish s).busy = false := rfl
@[simp] theorem finish_done (s : State) : (finish s).done = true := rfl
@[simp] theorem finish_err (s : State) : (finish s).err = s.err := rfl
@[simp] theorem finish_busyWr (s : State) : (finish s).busyWr = s.busyWr := rfl
@[simp] theorem finish_irqEn (s : State) : (finish s).irqEn = s.irqEn := rfl
@[simp] theorem finish_ibufLen (s : State) : (finish s).ibufLen = s.ibufLen := rfl
@[simp] theorem finish_obufLen (s : State) : (finish s).obufLen = s.obufLen := rfl
@[simp] theorem finish_encCat (s : State) : (finish s).encCat = s.encCat := rfl
@[simp] theorem finish_encFn (s : State) : (finish s).encFn = s.encFn := rfl
@[simp] theorem finish_cksumResult (s : State) : (finish s).cksumResult = s.cksumResult := rfl
@[simp] theorem finish_decKind (s : State) : (finish s).decKind = s.decKind := rfl
@[simp] theorem finish_decCount (s : State) : (finish s).decCount = s.decCount := rfl
@[simp] theorem finish_decField (s : State) : (finish s).decField = s.decField := rfl
@[simp] theorem finish_mem (s : State) : (finish s).mem = s.mem := rfl
@[simp] theorem finish_inputs (s : State) : (finish s).inputs = s.inputs := rfl
@[simp] theorem finish_resp (s : State) : (finish s).resp = s.resp := rfl
@[simp] theorem finish_epoch (s : State) : (finish s).epoch = s.epoch := rfl

@[simp] theorem consume_cmdOp (s : State) : (consume s).cmdOp = s.cmdOp := rfl
@[simp] theorem consume_busy (s : State) : (consume s).busy = s.busy := rfl
@[simp] theorem consume_done (s : State) : (consume s).done = s.done := rfl
@[simp] theorem consume_err (s : State) : (consume s).err = s.err := rfl
@[simp] theorem consume_busyWr (s : State) : (consume s).busyWr = s.busyWr := rfl
@[simp] theorem consume_irqEn (s : State) : (consume s).irqEn = s.irqEn := rfl
@[simp] theorem consume_ibufLen (s : State) : (consume s).ibufLen = s.ibufLen := rfl
@[simp] theorem consume_obufLen (s : State) : (consume s).obufLen = s.obufLen := rfl
@[simp] theorem consume_encCat (s : State) : (consume s).encCat = s.encCat := rfl
@[simp] theorem consume_encFn (s : State) : (consume s).encFn = s.encFn := rfl
@[simp] theorem consume_cksumResult (s : State) : (consume s).cksumResult = s.cksumResult := rfl
@[simp] theorem consume_decKind (s : State) : (consume s).decKind = s.decKind := rfl
@[simp] theorem consume_decCount (s : State) : (consume s).decCount = s.decCount := rfl
@[simp] theorem consume_decField (s : State) : (consume s).decField = s.decField := rfl
@[simp] theorem consume_mem (s : State) : (consume s).mem = s.mem := rfl
@[simp] theorem consume_inputs (s : State) : (consume s).inputs = s.inputs.tail := rfl
@[simp] theorem consume_resp (s : State) : (consume s).resp = s.resp := rfl
@[simp] theorem consume_epoch (s : State) : (consume s).epoch = s.epoch := rfl

/-! The reset state, field by field. -/
@[simp] theorem reset_cmdOp : State.reset.cmdOp = 0 := rfl
@[simp] theorem reset_busy : State.reset.busy = false := rfl
@[simp] theorem reset_done : State.reset.done = false := rfl
@[simp] theorem reset_err : State.reset.err = 0 := rfl
@[simp] theorem reset_busyWr : State.reset.busyWr = false := rfl
@[simp] theorem reset_irqEn : State.reset.irqEn = false := rfl
@[simp] theorem reset_ibufLen : State.reset.ibufLen = 0 := rfl
@[simp] theorem reset_obufLen : State.reset.obufLen = 0 := rfl
@[simp] theorem reset_encCat : State.reset.encCat = 0 := rfl
@[simp] theorem reset_encFn : State.reset.encFn = 0 := rfl
@[simp] theorem reset_cksumResult : State.reset.cksumResult = 0 := rfl
@[simp] theorem reset_decKind : State.reset.decKind = 0 := rfl
@[simp] theorem reset_decCount : State.reset.decCount = 0 := rfl
@[simp] theorem reset_decField : State.reset.decField = #v[0, 0, 0, 0, 0, 0, 0, 0] := rfl
@[simp] theorem reset_mem : State.reset.mem = [] := rfl
@[simp] theorem reset_inputs : State.reset.inputs = [] := rfl
@[simp] theorem reset_resp : State.reset.resp = .none := rfl
@[simp] theorem reset_epoch : State.reset.epoch = 0 := rfl

/-! Updates that leave memory alone leave every byte read alone. -/
@[simp] theorem setErr_readByte (e : ErrCode) (s : State) (x : Nat) : (setErr e s).readByte x = s.readByte x := rfl
@[simp] theorem failWith_readByte (e : ErrCode) (s : State) (x : Nat) : (failWith e s).readByte x = s.readByte x := rfl
@[simp] theorem markDropped_readByte (s : State) (x : Nat) : (markDropped s).readByte x = s.readByte x := rfl
@[simp] theorem clearStatusBits_readByte (d b : Bool) (s : State) (x : Nat) : (clearStatusBits d b s).readByte x = s.readByte x := rfl
@[simp] theorem respond_readByte (r : Response) (s : State) (x : Nat) : (respond r s).readByte x = s.readByte x := rfl
@[simp] theorem cmdStart_readByte (op : BitVec 3) (s : State) (x : Nat) : (cmdStart op s).readByte x = s.readByte x := rfl
@[simp] theorem softReset_readByte (s : State) (x : Nat) : (softReset s).readByte x = s.readByte x := rfl
@[simp] theorem setIrqEn_readByte (b : Bool) (s : State) (x : Nat) : (setIrqEn b s).readByte x = s.readByte x := rfl
@[simp] theorem setIbufLen_readByte (n : BitVec 16) (s : State) (x : Nat) : (setIbufLen n s).readByte x = s.readByte x := rfl
@[simp] theorem setEncCat_readByte (v : Byte) (s : State) (x : Nat) : (setEncCat v s).readByte x = s.readByte x := rfl
@[simp] theorem setEncFn_readByte (v : Byte) (s : State) (x : Nat) : (setEncFn v s).readByte x = s.readByte x := rfl
@[simp] theorem setObufLen_readByte (n : BitVec 16) (s : State) (x : Nat) : (setObufLen n s).readByte x = s.readByte x := rfl
@[simp] theorem setCksumResult_readByte (v : Byte) (s : State) (x : Nat) : (setCksumResult v s).readByte x = s.readByte x := rfl
@[simp] theorem setDecoded_readByte (k : BitVec 4) (vs : List Byte) (s : State) (x : Nat) : (setDecoded k vs s).readByte x = s.readByte x := rfl
@[simp] theorem finish_readByte (s : State) (x : Nat) : (finish s).readByte x = s.readByte x := rfl
@[simp] theorem consume_readByte (s : State) (x : Nat) : (consume s).readByte x = s.readByte x := rfl

end Sys2Proof.Machine
end

