-- ==== Sys2Proof/Laws/Memory.lean ====
section
/-! SUPPORT. Memory: a read after a write, what a write leaves alone, and that every memory operation keeps
the canonical form. -/
namespace Sys2Proof.Machine

/-- A byte reads as what was written there last. -/
@[simp] theorem Memory.lookup_write_same (m : Memory) (a : Nat) (v : Byte) :
    Memory.lookup (Memory.write m a v) a = some v := by
  induction m with
  | nil => simp [Memory.write, Memory.lookup]
  | cons c rest ih =>
    obtain ⟨b, w⟩ := c
    simp only [Memory.write]
    split
    · simp [Memory.lookup]
    · split
      · simp [Memory.lookup]
      · next _ hne => simp [Memory.lookup, hne, ih]

/-- A write leaves every other byte alone. -/
theorem Memory.lookup_write_other (m : Memory) {a b : Nat} (v : Byte) (h : b ≠ a) :
    Memory.lookup (Memory.write m a v) b = Memory.lookup m b := by
  induction m with
  | nil => simp [Memory.write, Memory.lookup, h]
  | cons c rest ih =>
    obtain ⟨k, w⟩ := c
    simp only [Memory.write]
    split
    · simp [Memory.lookup, h]
    · split
      · next _ heq => subst heq; simp [Memory.lookup, h]
      · simp [Memory.lookup, ih]

/-- Every entry after a write is the written one or an old one. -/
theorem Memory.mem_write {m : Memory} {a : Nat} {v : Byte} {c : Host.Cell}
    (h : c ∈ Memory.write m a v) : c = (a, v) ∨ c ∈ m := by
  induction m with
  | nil => simpa [Memory.write] using h
  | cons d rest ih =>
    obtain ⟨b, w⟩ := d
    simp only [Memory.write] at h
    split at h
    · simpa using h
    · split at h
      · rcases List.mem_cons.mp h with h | h
        · exact .inl h
        · exact .inr (List.mem_cons_of_mem _ h)
      · rcases List.mem_cons.mp h with h | h
        · exact .inr (h ▸ List.mem_cons_self)
        · exact (ih h).imp_right (List.mem_cons_of_mem _)

/-- A write of a buffer offset keeps the canonical form. -/
theorem Memory.write_wf {m : Memory} {a : Nat} (v : Byte) (hm : Memory.wf m)
    (ha : bufferOffset a = true) : Memory.wf (Memory.write m a v) := by
  refine ⟨?_, fun c hc => ?_⟩
  · have hp := hm.1
    clear hm
    induction m with
    | nil => simp [Memory.write]
    | cons d rest ih =>
      obtain ⟨b, w⟩ := d
      obtain ⟨hd, hr⟩ := List.pairwise_cons.mp hp
      simp only [Memory.write]
      split
      · next hlt =>
        refine List.pairwise_cons.mpr ⟨fun c hc => ?_, hp⟩
        rcases List.mem_cons.mp hc with rfl | hc
        · exact hlt
        · exact Nat.lt_trans hlt (hd c hc)
      · next hnlt =>
        split
        · next heq => subst heq; exact List.pairwise_cons.mpr ⟨hd, hr⟩
        · next hne =>
          refine List.pairwise_cons.mpr ⟨fun c hc => ?_, ih hr⟩
          rcases Memory.mem_write hc with rfl | hc
          · exact Nat.lt_of_le_of_ne (Nat.le_of_not_lt hnlt) (Ne.symm hne)
          · exact hd c hc
  · rcases Memory.mem_write hc with rfl | hc
    · exact ha
    · exact hm.2 c hc

/-- Consecutive writes of buffer offsets keep the canonical form. -/
theorem Memory.writeBytes_wf {m : Memory} {a : Nat} {f : List Byte} (hm : Memory.wf m)
    (ha : ∀ i < f.length, bufferOffset (a + i) = true) : Memory.wf (Memory.writeBytes m a f) := by
  induction f generalizing m a with
  | nil => exact hm
  | cons v rest ih =>
    refine ih (Memory.write_wf v hm (ha 0 (by simp))) fun i hi => ?_
    have := ha (i + 1) (by simpa using hi)
    rwa [Nat.add_assoc, Nat.add_comm 1 i]

/-- After consecutive writes from `a`, a byte of the written range is the written byte, and every other byte
is as before. -/
theorem Memory.lookup_writeBytes (m : Memory) (a b : Nat) (f : List Byte) :
    Memory.lookup (Memory.writeBytes m a f) b =
      if a ≤ b ∧ b < a + f.length then some (byteAt f (b - a)) else Memory.lookup m b := by
  induction f generalizing m a with
  | nil =>
    have : ¬(a ≤ b ∧ b < a + ([] : List Byte).length) := by simp
    rw [if_neg this]
    rfl
  | cons v rest ih =>
    simp only [Memory.writeBytes, ih, List.length_cons]
    by_cases hab : b = a
    · subst hab
      rw [if_neg (by omega), if_pos (by omega)]
      simp [byteAt]
    · by_cases hin : a + 1 ≤ b ∧ b < a + 1 + rest.length
      · rw [if_pos hin, if_pos (by omega)]
        obtain ⟨k, hk⟩ : ∃ k, b - a = k + 1 := ⟨b - a - 1, by omega⟩
        have : b - (a + 1) = k := by omega
        simp [byteAt, hk, this]
      · rw [if_neg hin, if_neg (by omega), Memory.lookup_write_other _ _ hab]

/-- The byte written is the byte read. -/
@[simp] theorem readByte_writeByte_same (s : State) (a : Nat) (v : Byte) :
    (s.writeByte a v).readByte a = v := by simp [State.readByte]

/-- A byte write leaves every other byte alone. -/
theorem readByte_writeByte_other (s : State) {a b : Nat} (v : Byte) (h : b ≠ a) :
    (s.writeByte a v).readByte b = s.readByte b := by
  simp [State.readByte, Memory.lookup_write_other _ _ h]

/-- What a byte reads as after the bytes of a frame are written to OBUF. -/
theorem readByte_writeObuf (s : State) (f : List Byte) (b : Nat) :
    (s.writeObuf f).readByte b =
      if obufOffset 0 ≤ b ∧ b < obufOffset 0 + f.length then byteAt f (b - obufOffset 0)
      else s.readByte b := by
  simp only [State.readByte, writeObuf_mem, writeObuf_epoch, Memory.lookup_writeBytes]
  split <;> simp

/-- A byte read depends on memory and the power-on count alone. -/
theorem readByte_congr {s t : State} (hm : t.mem = s.mem) (he : t.epoch = s.epoch) (a : Nat) :
    t.readByte a = s.readByte a := by simp [State.readByte, hm, he]

/-- The canonical form holds at reset. -/
theorem reset_memory_wf : Memory.wf State.reset.mem := by decide

/-- Every buffer byte of the reset state is a free value. -/
theorem reset_readByte (a : Nat) : State.reset.readByte a = Config.powerOnByte 0 a := rfl

/-- `IBUF[0..n-1]` has n bytes. -/
@[simp] theorem ibuf_length (s : State) (n : Nat) : (s.ibuf n).length = n := by simp [State.ibuf]

/-- `OBUF[0..n-1]` has n bytes. -/
@[simp] theorem obuf_length (s : State) (n : Nat) : (s.obuf n).length = n := by simp [State.obuf]

/-- Byte i of `IBUF[0..n-1]` is IBUF[i]. -/
theorem byteAt_ibuf (s : State) {i n : Nat} (h : i < n) :
    byteAt (s.ibuf n) i = s.readByte (ibufOffset i) := by
  simp [byteAt, State.ibuf, List.getD, h]

/-- Byte i of `OBUF[0..n-1]` is OBUF[i]. -/
theorem byteAt_obuf (s : State) {i n : Nat} (h : i < n) :
    byteAt (s.obuf n) i = s.readByte (obufOffset i) := by
  simp [byteAt, State.obuf, List.getD, h]

/-- The bytes IBUF holds depend on memory and the power-on count alone. -/
theorem ibuf_congr {s t : State} (hm : t.mem = s.mem) (he : t.epoch = s.epoch) (n : Nat) :
    t.ibuf n = s.ibuf n := by simp [State.ibuf, readByte_congr hm he]

/-- The bytes OBUF holds depend on memory and the power-on count alone. -/
theorem obuf_congr {s t : State} (hm : t.mem = s.mem) (he : t.epoch = s.epoch) (n : Nat) :
    t.obuf n = s.obuf n := by simp [State.obuf, readByte_congr hm he]

end Sys2Proof.Machine
end

