-- ==== Sys2Proof/Laws/Operands.lean ====
section
/-! SUPPORT. Which location an offset names, and the value STATUS reads as. -/
namespace Sys2Proof.Machine

/-- The IBUF window. -/
theorem regionAt_ibuf {a : Offset} (h : 0x400 ≤ a.toNat) (h' : a.toNat ≤ 0x5FF) :
    regionAt a = .ibuf := if_pos ⟨h, h'⟩

/-- The OBUF window. -/
theorem regionAt_obuf {a : Offset} (h : 0x800 ≤ a.toNat) (h' : a.toNat ≤ 0x9FF) :
    regionAt a = .obuf := by
  rw [regionAt, if_neg (by omega), if_pos ⟨h, h'⟩]

/-- The reserved offsets of the byte-wide part. -/
theorem regionAt_reserved {a : Offset} (h : ¬(0x400 ≤ a.toNat ∧ a.toNat ≤ 0x5FF))
    (h' : ¬(0x800 ≤ a.toNat ∧ a.toNat ≤ 0x9FF)) : regionAt a = .reserved := by
  rw [regionAt, if_neg h, if_neg h']

/-- Only the IBUF window is IBUF. -/
theorem regionAt_eq_ibuf {a : Offset} : regionAt a = .ibuf ↔ 0x400 ≤ a.toNat ∧ a.toNat ≤ 0x5FF := by
  by_cases h : 0x400 ≤ a.toNat ∧ a.toNat ≤ 0x5FF
  · exact iff_of_true (regionAt_ibuf h.1 h.2) h
  · refine iff_of_false (fun hr => ?_) h
    by_cases h' : 0x800 ≤ a.toNat ∧ a.toNat ≤ 0x9FF
    · cases (regionAt_obuf h'.1 h'.2).symm.trans hr
    · cases (regionAt_reserved h h').symm.trans hr

/-! The register map, offset by offset (10_state.md R16). -/
@[simp] theorem regAt_000 : regAt 0x000#12 = .cmd := rfl
@[simp] theorem regAt_004 : regAt 0x004#12 = .status := rfl
@[simp] theorem regAt_008 : regAt 0x008#12 = .ctrl := rfl
@[simp] theorem regAt_00C : regAt 0x00C#12 = .ibufLen := rfl
@[simp] theorem regAt_010 : regAt 0x010#12 = .obufLen := rfl
@[simp] theorem regAt_014 : regAt 0x014#12 = .encCat := rfl
@[simp] theorem regAt_018 : regAt 0x018#12 = .encFn := rfl
@[simp] theorem regAt_01C : regAt 0x01C#12 = .cksumResult := rfl
@[simp] theorem regAt_020 : regAt 0x020#12 = .decKind := rfl
@[simp] theorem regAt_024 : regAt 0x024#12 = .decCount := rfl

/-- A register stands at the offset the map lists it at. -/
theorem regAt_mem {a : Offset} {r : Reg} (h : regAt a = r) (hr : r ≠ .reserved) :
    (a, r) ∈ registerMap := by
  unfold regAt at h
  cases hf : registerMap.find? (fun p => p.1 == a) with
  | none => exact absurd (by simpa [hf] using h.symm) hr
  | some p =>
    have hp : p.1 = a := by simpa using List.find?_some hf
    have hq : p.2 = r := by simpa [hf] using h
    exact hp ▸ hq ▸ List.mem_of_find?_eq_some hf

/-- An offset that the map does not list is reserved. -/
theorem regAt_reserved {a : Offset} (h : ∀ p ∈ registerMap, p.1 ≠ a) : regAt a = .reserved := by
  have : registerMap.find? (fun p => p.1 == a) = none := by simpa using h
  simp [regAt, this]

/-- The registers that a write can have an effect on, and where they stand (10_state.md R16). -/
theorem regAt_written {a : Offset} :
    (regAt a = .cmd → a = 0x000) ∧ (regAt a = .status → a = 0x004) ∧ (regAt a = .ctrl → a = 0x008) ∧
    (regAt a = .ibufLen → a = 0x00C) ∧ (regAt a = .encCat → a = 0x014) ∧
    (regAt a = .encFn → a = 0x018) := by
  refine ⟨?_, ?_, ?_, ?_, ?_, ?_⟩ <;> intro h <;> simpa [registerMap] using regAt_mem h (by decide)

/-- DEC_FIELDi stands at 0x040 + 4*i. -/
theorem regAt_decField (i : Fin 8) : regAt (BitVec.ofNat 12 (0x040 + 4 * i.val)) = .decField i := by
  revert i
  decide

/-- What STATUS reads as, as a number: BUSY | DONE << 1 | ERR << 4 | BUSY_WR << 8. -/
theorem statusValue_toNat (s : State) : (statusValue s).toNat =
    s.busy.toNat + 2 * s.done.toNat + 16 * s.err.toNat + 256 * s.busyWr.toNat := by
  have key : ∀ (e : BitVec 4) (a b c : Bool),
      (zext32 (BitVec.ofBool c ++ e ++ 0#2 ++ BitVec.ofBool b ++ BitVec.ofBool a)).toNat =
        a.toNat + 2 * b.toNat + 16 * e.toNat + 256 * c.toNat := by decide
  exact key s.err s.busy s.done s.busyWr

end Sys2Proof.Machine
end

