-- ==== Sys2Proof/Laws/Ops.lean ====
section
/-! SUPPORT. What each shared operation can do, said once; the meanings and the step are built of these. -/
namespace Sys2Proof.Machine

/-- Under the input lock a write is dropped and marked. -/
theorem lockedWrite_of_busy {write : State → State} {s : State} (h : s.busy = true) :
    lockedWrite write s = markDropped s := by simp [lockedWrite, h]

/-- While idle a write is done. -/
theorem lockedWrite_of_idle {write : State → State} {s : State} (h : s.busy = false) :
    lockedWrite write s = write s := by simp [lockedWrite, h]

/-- The completion step of the pending command: its body, then BUSY = 0 and DONE = 1. -/
theorem completeCommand_of_pending {op : BitVec 3} {body : State → State} {s : State}
    (hb : s.busy = true) (ho : s.cmdOp = op) : completeCommand op body s = finish (body s) :=
  if_pos ⟨hb, ho⟩

/-- A completion step that is not enabled changes nothing. -/
theorem completeCommand_of_disabled {op : BitVec 3} {body : State → State} {s : State}
    (h : ¬(s.busy = true ∧ s.cmdOp = op)) : completeCommand op body s = s := if_neg h

/-- What the two steps of a command can do. -/
theorem commandStep_cases (op : BitVec 3) (body : State → State) (phase : Phase) (s : State) :
    (phase = .start ∧ s.busy = true ∧ commandStep op body phase s = respond .ack (markDropped s)) ∨
    (phase = .start ∧ s.busy = false ∧ commandStep op body phase s = respond .ack (cmdStart op s)) ∨
    (phase = .complete ∧ s.busy = true ∧ s.cmdOp = op ∧
      commandStep op body phase s = finish (body s)) ∨
    (phase = .complete ∧ ¬(s.busy = true ∧ s.cmdOp = op) ∧ commandStep op body phase s = s) := by
  cases phase with
  | start =>
    cases hb : s.busy with
    | true => exact .inl ⟨rfl, rfl, by simp [commandStep, writeCmd, lockedWrite_of_busy hb]⟩
    | false => exact .inr (.inl ⟨rfl, rfl, by simp [commandStep, writeCmd, lockedWrite_of_idle hb]⟩)
  | complete =>
    by_cases h : s.busy = true ∧ s.cmdOp = op
    · exact .inr (.inr (.inl ⟨rfl, h.1, h.2, completeCommand_of_pending h.1 h.2⟩))
    · exact .inr (.inr (.inr ⟨rfl, h, completeCommand_of_disabled h⟩))

/-- The check every command makes, as a comparison. -/
theorem badLength_eq_true {s : State} : badLength s = true ↔ 512 < s.ibufLen.toNat := by
  simp [badLength, Config.bufSize]

/-- The check every command makes, passed. -/
theorem badLength_eq_false {s : State} : badLength s = false ↔ s.ibufLen.toNat ≤ 512 := by
  simp [badLength, Config.bufSize]

/-- A command reads as many bytes as IBUF_LEN says. -/
@[simp] theorem inputBytes_length (s : State) : (inputBytes s).length = s.ibufLen.toNat := by
  simp [inputBytes]

/-- Byte i of what a command reads is IBUF[i]. -/
theorem byteAt_inputBytes {s : State} {i : Nat} (h : i < s.ibufLen.toNat) :
    byteAt (inputBytes s) i = s.readByte (ibufOffset i) := byteAt_ibuf s h

/-- What the body of CKSUM can do. -/
theorem cksumBody_cases (s : State) :
    (512 < s.ibufLen.toNat ∧ cksumBody s = setErr .badLength (setCksumResult 0 s)) ∨
    (s.ibufLen.toNat ≤ 512 ∧
      cksumBody s = setErr .ok (setCksumResult (checksum (inputBytes s)) s)) := by
  by_cases h : 512 < s.ibufLen.toNat
  · exact .inl ⟨h, by simp [cksumBody, badLength_eq_true.mpr h, failWith]⟩
  · have h' := Nat.le_of_not_lt h
    exact .inr ⟨h', by simp [cksumBody, badLength_eq_false.mpr h', setErr, setCksumResult]⟩

/-- What the body of ENCODE can do. -/
theorem encodeBody_cases (s : State) :
    (512 < s.ibufLen.toNat ∧
      encodeBody s = setErr .badLength (setCksumResult 0 (setObufLen 0 s))) ∨
    (255 < s.ibufLen.toNat ∧ s.ibufLen.toNat ≤ 512 ∧
      encodeBody s = setErr .payloadTooLarge (setCksumResult 0 (setObufLen 0 s))) ∨
    (s.ibufLen.toNat ≤ 255 ∧ ∃ f, encodeFrame s.encCat s.encFn (inputBytes s) = some f ∧
      f.length = s.ibufLen.toNat + 6 ∧
      encodeBody s = setErr .ok (setCksumResult (byteAt f (s.ibufLen.toNat + 5))
        (setObufLen (BitVec.ofNat 16 (s.ibufLen.toNat + 6)) (s.writeObuf f)))) := by
  by_cases h : 512 < s.ibufLen.toNat
  · exact .inl ⟨h, by simp [encodeBody, badLength_eq_true.mpr h, failWith]⟩
  · have h' := Nat.le_of_not_lt h
    by_cases hp : 255 < s.ibufLen.toNat
    · refine .inr (.inl ⟨hp, h', ?_⟩)
      have hn := encodeFrame_of_gt (cat := s.encCat) (fn := s.encFn) (p := inputBytes s) (by simpa)
      simp [encodeBody, badLength_eq_false.mpr h', hn, failWith]
    · have hl := Nat.le_of_not_lt hp
      have hs := encodeFrame_of_le (cat := s.encCat) (fn := s.encFn) (p := inputBytes s) (by simpa)
      refine .inr (.inr ⟨hl, _, hs, by simpa using encodeFrame_length hs, ?_⟩)
      simp only [encodeBody, badLength_eq_false.mpr h', hs]
      rfl

/-- What the body of DECODE can do, for the parse of the buffer. -/
theorem decodeBody_cases (parse : List Byte → DecodeResult) (s : State) :
    (512 < s.ibufLen.toNat ∧ decodeBody parse s = setErr .badLength (setDecoded 0 [] s)) ∨
    (s.ibufLen.toNat ≤ 512 ∧ parse (inputBytes s) = .empty ∧
      decodeBody parse s = setErr .ok (setDecoded 0 [] s)) ∨
    (s.ibufLen.toNat ≤ 512 ∧ parse (inputBytes s) = .truncated ∧
      decodeBody parse s = setErr .truncated (setDecoded 0 [] s)) ∨
    (s.ibufLen.toNat ≤ 512 ∧ ∃ k vs, parse (inputBytes s) = .fields k vs ∧
      decodeBody parse s = setErr .ok (setDecoded (kindCode k) vs s)) := by
  by_cases h : 512 < s.ibufLen.toNat
  · exact .inl ⟨h, by simp [decodeBody, badLength_eq_true.mpr h, failWith]⟩
  · have h' := Nat.le_of_not_lt h
    cases hp : parse (inputBytes s) with
    | empty =>
      exact .inr (.inl ⟨h', rfl, by simp [decodeBody, badLength_eq_false.mpr h', hp, writeResult]⟩)
    | truncated =>
      refine .inr (.inr (.inl ⟨h', rfl, ?_⟩))
      simp [decodeBody, badLength_eq_false.mpr h', hp, writeResult, failWith]
    | fields k vs =>
      refine .inr (.inr (.inr ⟨h', k, vs, rfl, ?_⟩))
      simp [decodeBody, badLength_eq_false.mpr h', hp, writeResult, setErr, setDecoded]

/-- What the arm of an entry can answer. -/
theorem entryResult_cases (e : Entry) (b : List Byte) :
    (b.length < kindMinLen (entryKind e) ∧ entryResult e b = .truncated) ∨
    (kindMinLen (entryKind e) ≤ b.length ∧
      entryResult e b = .fields (entryKind e) (extract (entryKind e) b)) := by
  by_cases h : b.length < kindMinLen (entryKind e)
  · exact .inl ⟨h, if_pos h⟩
  · exact .inr ⟨Nat.le_of_not_lt h, if_neg h⟩

/-- What the completion step of a dispatched DECODE can do. -/
theorem completeFrame_cases (e : Entry) (s : State) :
    (readsKey s = true ∧ inputKey s = e.key Config.codes ∧
      completeFrame e s = finish (decodeBody (entryResult e) s)) ∨
    (¬(readsKey s = true ∧ inputKey s = e.key Config.codes) ∧ completeFrame e s = s) := by
  by_cases h : readsKey s = true ∧ inputKey s = e.key Config.codes
  · exact .inl ⟨h.1, h.2, if_pos h⟩
  · exact .inr ⟨h, if_neg h⟩

/-- When a DECODE that reads a key is pending. -/
theorem readsKey_eq_true {s : State} : readsKey s = true ↔
    s.busy = true ∧ s.cmdOp = 3 ∧ s.ibufLen.toNat ≤ 512 ∧ 5 ≤ s.ibufLen.toNat := by
  simp only [readsKey, Bool.and_eq_true, Bool.not_eq_true', beq_iff_eq, badLength_eq_false,
    decide_eq_true_eq, and_assoc]

/-- The meaning of a dispatch entry's instruction. -/
theorem exec_entry (e : Entry) (s : State) : exec e.instr s = .next (completeFrame e s) := by
  cases e <;> rfl

/-- The meaning of an operation's completion step, as one of the commands. -/
theorem exec_decodeOp (o : BitVec 3) (phase : Phase) (s : State) :
    ∃ body, exec (decodeOp o phase) s = .next (commandStep o body phase s) ∧
      (body = cksumBody ∨ body = encodeBody ∨
        body = decodeBody (fun b => decodeFrame Config.codes (some b)) ∨ body = reservedBody) := by
  have ho : ∀ o : BitVec 3, o = 0 ∨ o = 1 ∨ o = 2 ∨ o = 3 ∨ o = 4 ∨ o = 5 ∨ o = 6 ∨ o = 7 := by
    decide
  rcases ho o with rfl | rfl | rfl | rfl | rfl | rfl | rfl | rfl
  · exact ⟨reservedBody, rfl, by simp⟩
  · exact ⟨cksumBody, rfl, by simp⟩
  · exact ⟨encodeBody, rfl, by simp⟩
  · exact ⟨_, rfl, by simp⟩
  all_goals exact ⟨reservedBody, rfl, by simp⟩

/-- What a step that answers a next state did: nothing (idle), a power-on reset, a host transaction's
instruction, or the engine's. -/
theorem step_cases {s t : State} (h : step s = .next t) :
    (fetched s = .idle ∧ s.busy = false ∧ t = consume s) ∨
    ((∃ rest, s.inputs = .powerOn :: rest) ∧ t = powerOnReset (consume s)) ∨
    (∃ tx rest i, s.inputs = .host tx :: rest ∧ decode (.tx tx) = .ok i ∧
      exec i (consume s) = .next t) ∨
    (s.busy = true ∧ (s.inputs = [] ∨ ∃ rest, s.inputs = .engine :: rest) ∧
      ∃ i, decode (engineCode s) = .ok i ∧ exec i (consume s) = .next t) := by
  have run : ∀ code, fetched s = .run code →
      ∃ i, decode code = .ok i ∧ exec i (consume s) = .next t := by
    intro code hf
    simp only [step, hf] at h
    cases hd : decode code with
    | ok i => exact ⟨i, rfl, by simpa [hd] using h⟩
    | error e => simp only [hd] at h; cases e <;> cases h
  have engine : (s.inputs = [] ∨ ∃ rest, s.inputs = .engine :: rest) →
      fetched s = fetchedEngine s := by
    rintro (hi | ⟨rest, hi⟩) <;> simp [fetched, hi]
  have both : (s.inputs = [] ∨ ∃ rest, s.inputs = .engine :: rest) →
      (fetched s = .idle ∧ s.busy = false ∧ t = consume s) ∨
      (s.busy = true ∧ (s.inputs = [] ∨ ∃ rest, s.inputs = .engine :: rest) ∧
        ∃ i, decode (engineCode s) = .ok i ∧ exec i (consume s) = .next t) := by
    intro hi
    have hf := engine hi
    cases hb : s.busy with
    | true =>
      have : fetched s = .run (engineCode s) := by simp [hf, fetchedEngine, hb]
      exact .inr ⟨rfl, hi, run _ this⟩
    | false =>
      have hidle : fetched s = .idle := by simp [hf, fetchedEngine, hb]
      refine .inl ⟨hidle, rfl, ?_⟩
      simp only [step, hidle] at h
      exact (Host.Outcome.next.inj h).symm
  match hi : s.inputs with
  | [] =>
    rcases both (.inl hi) with h' | h'
    · exact .inl h'
    · exact .inr (.inr (.inr (hi ▸ h')))
  | .engine :: rest =>
    rcases both (.inr ⟨rest, hi⟩) with h' | h'
    · exact .inl h'
    · exact .inr (.inr (.inr (hi ▸ h')))
  | .powerOn :: rest =>
    refine .inr (.inl ⟨⟨rest, rfl⟩, ?_⟩)
    have hf : fetched s = .powerOn := by simp [fetched, hi]
    simp only [step, hf] at h
    exact (Host.Outcome.next.inj h).symm
  | .host tx :: rest =>
    obtain ⟨i, hd, he⟩ := run (.tx tx) (by simp [fetched, hi])
    exact .inr (.inr (.inl ⟨tx, rest, i, rfl, hd, he⟩))

end Sys2Proof.Machine
end

