-- ==== Sys2Proof/Laws/PerInstr.lean ====
section
/-! SUPPORT. A fact about every instruction as syntax, one lemma per constructor: where a well-formed
instruction is encoded as a host transaction, that transaction is a legal one (20_memory.md R40). -/
namespace Sys2Proof.Laws

/-- The code of a well-formed instruction is no illegal transaction. -/
def LegalEncoding.Statement (i : Instr) : Prop :=
  i.wellFormed = true → ∀ t, encode i = .tx t → Machine.legalTransaction t = true

theorem LegalEncoding.cksum (phase : Phase) : LegalEncoding.Statement (.cksum phase) := by
  intro _ t h
  cases phase with
  | start => cases h; decide
  | complete => cases h

theorem LegalEncoding.encode (phase : Phase) : LegalEncoding.Statement (.encode phase) := by
  intro _ t h
  cases phase with
  | start => cases h; decide
  | complete => cases h

theorem LegalEncoding.decode (phase : Phase) : LegalEncoding.Statement (.decode phase) := by
  intro _ t h
  cases phase with
  | start => cases h; decide
  | complete => cases h

theorem LegalEncoding.reservedOp0 (phase : Phase) : LegalEncoding.Statement (.reservedOp0 phase) := by
  intro _ t h
  cases phase with
  | start => cases h; decide
  | complete => cases h

theorem LegalEncoding.reservedOp4 (phase : Phase) : LegalEncoding.Statement (.reservedOp4 phase) := by
  intro _ t h
  cases phase with
  | start => cases h; decide
  | complete => cases h

theorem LegalEncoding.reservedOp5 (phase : Phase) : LegalEncoding.Statement (.reservedOp5 phase) := by
  intro _ t h
  cases phase with
  | start => cases h; decide
  | complete => cases h

theorem LegalEncoding.reservedOp6 (phase : Phase) : LegalEncoding.Statement (.reservedOp6 phase) := by
  intro _ t h
  cases phase with
  | start => cases h; decide
  | complete => cases h

theorem LegalEncoding.reservedOp7 (phase : Phase) : LegalEncoding.Statement (.reservedOp7 phase) := by
  intro _ t h
  cases phase with
  | start => cases h; decide
  | complete => cases h

theorem LegalEncoding.srst : LegalEncoding.Statement .srst := by
  intro _ t h
  cases h
  decide

theorem LegalEncoding.setCtrl (irqEn : Bool) : LegalEncoding.Statement (.setCtrl irqEn) := by
  intro _ t h
  cases h
  cases irqEn <;> decide

theorem LegalEncoding.clearStatus (doneClear busyWrClear : Bool) :
    LegalEncoding.Statement (.clearStatus doneClear busyWrClear) := by
  intro _ t h
  cases h
  cases doneClear <;> cases busyWrClear <;> decide

theorem LegalEncoding.sw (addr : Offset) (w : Word) : LegalEncoding.Statement (.sw addr w) := by
  intro hw t h
  cases h
  simp only [Instr.wellFormed, Offset.inRegisterWindow, Offset.wordAligned, Bool.and_eq_true,
    decide_eq_true_eq] at hw
  simp [Machine.legalTransaction, Machine.legalWordOffset, hw.1.1, hw.1.2]

theorem LegalEncoding.lw (addr : Offset) : LegalEncoding.Statement (.lw addr) := by
  intro hw t h
  cases h
  simp only [Instr.wellFormed, Offset.inRegisterWindow, Offset.wordAligned, Bool.and_eq_true,
    decide_eq_true_eq] at hw
  simp [Machine.legalTransaction, Machine.legalWordOffset, hw.1, hw.2]

theorem LegalEncoding.sb (addr : Offset) (v : Byte) : LegalEncoding.Statement (.sb addr v) := by
  intro hw t h
  cases h
  simp only [Instr.wellFormed, Offset.inRegisterWindow, Bool.not_eq_true', decide_eq_false_iff_not,
    Nat.not_lt] at hw
  simp [Machine.legalTransaction, Machine.legalByteOffset, hw]

theorem LegalEncoding.lb (addr : Offset) : LegalEncoding.Statement (.lb addr) := by
  intro hw t h
  cases h
  simp only [Instr.wellFormed, Offset.inRegisterWindow, Bool.not_eq_true', decide_eq_false_iff_not,
    Nat.not_lt] at hw
  simp [Machine.legalTransaction, Machine.legalByteOffset, hw]

theorem LegalEncoding.frameLightStatus : LegalEncoding.Statement .frameLightStatus := by
  intro _ t h
  cases h

theorem LegalEncoding.frameTimerAutoLight : LegalEncoding.Statement .frameTimerAutoLight := by
  intro _ t h
  cases h

theorem LegalEncoding.frameTimerAutoMusic : LegalEncoding.Statement .frameTimerAutoMusic := by
  intro _ t h
  cases h

theorem LegalEncoding.frameTimerAlarm1 : LegalEncoding.Statement .frameTimerAlarm1 := by
  intro _ t h
  cases h

theorem LegalEncoding.frameTimerAlarm2 : LegalEncoding.Statement .frameTimerAlarm2 := by
  intro _ t h
  cases h

theorem LegalEncoding.frameTimerAlarm3 : LegalEncoding.Statement .frameTimerAlarm3 := by
  intro _ t h
  cases h

theorem LegalEncoding.frameSpeakerVolume : LegalEncoding.Statement .frameSpeakerVolume := by
  intro _ t h
  cases h

theorem LegalEncoding.frameSpeakerEqualizer : LegalEncoding.Statement .frameSpeakerEqualizer := by
  intro _ t h
  cases h

end Sys2Proof.Laws
end

