-- ==== Sys2Proof/Laws/Step.lean ====
section
/-! SUPPORT. What a host transaction and an engine step can do to the state, each said once. -/
namespace Sys2Proof.Machine

/-- Everything a host transaction can do (44_command_interface.md R111 to R114). -/
inductive HostEffect (tx : Transaction) (s t : State) : Prop where
  /-- a read: only the answer of the port -/
  | read (r : Response) (hd : tx.dir = .read) (ht : t = respond r s)
  /-- a write with no effect -/
  | ignored (hd : tx.dir = .write) (ht : t = respond .ack s)
  /-- a write that the input lock drops -/
  | dropped (hd : tx.dir = .write) (hb : s.busy = true) (ht : t = respond .ack (markDropped s))
  /-- an accepted CMD write -/
  | start (w : Word) (htx : tx = ⟨.write, 4, 0x000, w⟩) (hb : s.busy = false)
      (ht : t = respond .ack (cmdStart (w.extractLsb' 0 3) s))
  /-- a STATUS write -/
  | status (w : Word) (htx : tx = ⟨.write, 4, 0x004, w⟩)
      (ht : t = respond .ack (clearStatusBits (w.getLsbD 1) (w.getLsbD 8) s))
  /-- a CTRL write with bit 31 set -/
  | reset (w : Word) (htx : tx = ⟨.write, 4, 0x008, w⟩) (hw : w.getLsbD 31 = true)
      (ht : t = respond .ack (softReset s))
  /-- a CTRL write with bit 31 clear -/
  | ctrl (w : Word) (htx : tx = ⟨.write, 4, 0x008, w⟩) (hw : w.getLsbD 31 = false)
      (ht : t = respond .ack (setIrqEn (w.getLsbD 0) s))
  /-- an accepted write of IBUF_LEN -/
  | ibufLen (n : BitVec 16) (hd : tx.dir = .write) (hb : s.busy = false)
      (ht : t = respond .ack (setIbufLen n s))
  /-- an accepted write of ENC_CAT -/
  | encCat (v : Byte) (hd : tx.dir = .write) (hb : s.busy = false)
      (ht : t = respond .ack (setEncCat v s))
  /-- an accepted write of ENC_FN -/
  | encFn (v : Byte) (hd : tx.dir = .write) (hb : s.busy = false)
      (ht : t = respond .ack (setEncFn v s))
  /-- an accepted write of an IBUF byte -/
  | ibuf (hd : tx.dir = .write) (hw : tx.width = 1) (hb : s.busy = false)
      (ha : 0x400 ≤ tx.addr.toNat ∧ tx.addr.toNat ≤ 0x5FF)
      (ht : t = respond .ack (s.writeByte tx.addr.toNat (tx.data.extractLsb' 0 8)))

/-- A command's start is the CMD write of its operation. -/
theorem exec_decodeOp_start (o : BitVec 3) (s : State) :
    exec (decodeOp o .start) s = .next (respond .ack (writeCmd o s)) := by
  have ho : ∀ o : BitVec 3, o = 0 ∨ o = 1 ∨ o = 2 ∨ o = 3 ∨ o = 4 ∨ o = 5 ∨ o = 6 ∨ o = 7 := by
    decide
  rcases ho o with rfl | rfl | rfl | rfl | rfl | rfl | rfl | rfl <;> rfl

/-- A write through the input lock is dropped or done. -/
theorem HostEffect.ofLocked {tx : Transaction} {s : State} {write : State → State}
    (hd : tx.dir = .write)
    (h : s.busy = false → HostEffect tx s (respond .ack (write s))) :
    HostEffect tx s (respond .ack (lockedWrite write s)) := by
  cases hb : s.busy with
  | true => rw [lockedWrite_of_busy hb]; exact .dropped hd hb rfl
  | false => rw [lockedWrite_of_idle hb]; exact h hb

/-- What a write of a register by `sw` can do. -/
theorem HostEffect.ofSw {tx : Transaction} {s t : State} (hd : tx.dir = .write)
    (h0 : tx.addr ≠ 0x000) (h4 : tx.addr ≠ 0x004) (h8 : tx.addr ≠ 0x008)
    (h : exec (.sw tx.addr tx.data) s = .next t) : HostEffect tx s t := by
  have hw := @regAt_written tx.addr
  simp only [exec, execSw] at h
  split at h
  · cases h
    cases hr : regAt tx.addr with
    | cmd => exact absurd (hw.1 hr) h0
    | status => exact absurd (hw.2.1 hr) h4
    | ctrl => exact absurd (hw.2.2.1 hr) h8
    | ibufLen => exact .ofLocked hd fun hb => .ibufLen _ hd hb rfl
    | encCat => exact .ofLocked hd fun hb => .encCat _ hd hb rfl
    | encFn => exact .ofLocked hd fun hb => .encFn _ hd hb rfl
    | obufLen => exact .ignored hd rfl
    | cksumResult => exact .ignored hd rfl
    | decKind => exact .ignored hd rfl
    | decCount => exact .ignored hd rfl
    | decField i => exact .ignored hd rfl
    | reserved => exact .ignored hd rfl
  · cases h

/-- Everything a host transaction that decodes to an instruction can do. -/
theorem hostEffect_of_exec {tx : Transaction} {i : Instr} {s t : State}
    (hd : decode (.tx tx) = .ok i) (h : exec i s = .next t) : HostEffect tx s t := by
  obtain ⟨dir, width, addr, data⟩ := tx
  simp only [decode, decodeTransaction] at hd
  split at hd
  · split at hd
    · cases hd
    · next hw =>
      have hw : width = 4 := by simpa using hw
      subst hw
      split at hd
      · cases hd
      · cases dir with
        | read =>
          cases hd
          simp only [exec, execLw] at h
          split at h
          · exact .read _ rfl (Host.Outcome.next.inj h).symm
          · cases h
        | write =>
          simp only [Except.ok.injEq, decodeRegisterWrite] at hd
          split at hd
          · next ha =>
            subst ha hd
            rw [decodeCmdWord, exec_decodeOp_start] at h
            cases h
            exact .ofLocked rfl fun hb => .start _ rfl hb rfl
          · split at hd
            · next ha =>
              subst ha hd
              cases h
              exact .status _ rfl rfl
            · split at hd
              · next ha =>
                subst ha
                simp only [decodeCtrlWord] at hd
                split at hd
                · next hb => subst hd; cases h; exact .reset _ rfl hb rfl
                · next hb => subst hd; cases h; exact .ctrl _ rfl (by simpa using hb) rfl
              · next h0 h4 h8 =>
                subst hd
                exact .ofSw rfl h0 h4 h8 h
  · split at hd
    · cases hd
    · next hw =>
      have hw : width = 1 := by simpa using hw
      subst hw
      cases dir with
      | read =>
        cases hd
        simp only [exec, execLb] at h
        split at h
        · exact .read _ rfl (Host.Outcome.next.inj h).symm
        · cases h
      | write =>
        cases hd
        simp only [exec, execSb] at h
        split at h
        · cases h
          simp only [writeWindowByte]
          cases hr : regionAt addr with
          | ibuf =>
            exact .ofLocked rfl fun hb => .ibuf rfl rfl hb (regionAt_eq_ibuf.mp hr) rfl
          | obuf => exact .ignored rfl rfl
          | reserved => exact .ignored rfl rfl
        · cases h

/-- Everything an engine step can do: the body of the pending operation, then BUSY = 0 and DONE = 1
(44_command_interface.md R116). -/
inductive EngineEffect (s t : State) : Prop where
  /-- CKSUM -/
  | cksum (ho : s.cmdOp = 1) (ht : t = finish (cksumBody s))
  /-- ENCODE -/
  | encode (ho : s.cmdOp = 2) (ht : t = finish (encodeBody s))
  /-- DECODE of a buffer whose parse is dispatched to no entry by the fetch -/
  | decode (ho : s.cmdOp = 3)
      (ht : t = finish (decodeBody (fun b => decodeFrame Config.codes (some b)) s))
  /-- DECODE of a buffer with an entry's key -/
  | frame (e : Entry) (ho : s.cmdOp = 3) (hr : readsKey s = true)
      (hk : inputKey s = e.key Config.codes) (ht : t = finish (decodeBody (entryResult e) s))
  /-- a reserved operation -/
  | reserved (ho : s.cmdOp ≠ 1 ∧ s.cmdOp ≠ 2 ∧ s.cmdOp ≠ 3) (ht : t = finish (reservedBody s))

/-- Everything the instruction the engine fetches can do, run where it is pending. -/
theorem engineEffect_of_exec {i : Instr} {s t : State} (hb : s.busy = true)
    (hd : decode (engineCode s) = .ok i) (h : exec i (consume s) = .next t) :
    EngineEffect (consume s) t := by
  unfold engineCode at hd
  split at hd
  · next hk =>
    simp only [Sys2Proof.decode] at hd
    split at hd
    · next e he =>
      cases hd
      rw [exec_entry] at h
      cases h
      have hkey : inputKey s = e.key Config.codes := by
        unfold decodeKey at he
        split_ifs at he with h1 h2 h3 h4 h5 h6 h7 h8 <;> cases he <;> assumption
      rcases completeFrame_cases e (consume s) with ⟨h1, h2, h3⟩ | ⟨h1, _⟩
      · exact .frame e (readsKey_eq_true.mp h1).2.1 h1 h2 h3
      · exact absurd ⟨hk.1, hkey⟩ h1
    · cases hd
  · cases hd
    have pend : ∀ op body, s.cmdOp = op →
        commandStep op body .complete (consume s) = finish (body (consume s)) :=
      fun op body ho => completeCommand_of_pending hb ho
    have ho : ∀ o : BitVec 3, o = 0 ∨ o = 1 ∨ o = 2 ∨ o = 3 ∨ o = 4 ∨ o = 5 ∨ o = 6 ∨ o = 7 := by
      decide
    have res : ∀ op : BitVec 3, s.cmdOp = op → op ≠ 1 ∧ op ≠ 2 ∧ op ≠ 3 →
        (consume s).cmdOp ≠ 1 ∧ (consume s).cmdOp ≠ 2 ∧ (consume s).cmdOp ≠ 3 := by
      rintro op rfl h
      exact h
    rcases ho s.cmdOp with o | o | o | o | o | o | o | o <;> rw [o] at h
    · exact .reserved (res _ o (by decide)) ((Host.Outcome.next.inj h).symm.trans (pend _ _ o))
    · exact .cksum o ((Host.Outcome.next.inj h).symm.trans (pend _ _ o))
    · exact .encode o ((Host.Outcome.next.inj h).symm.trans (pend _ _ o))
    · exact .decode o ((Host.Outcome.next.inj h).symm.trans (pend _ _ o))
    all_goals exact .reserved (res _ o (by decide)) ((Host.Outcome.next.inj h).symm.trans (pend _ _ o))

/-- Everything a step that answers a next state can do. -/
theorem step_effect {s t : State} (h : step s = .next t) :
    (s.busy = false ∧ (∀ tx rest, s.inputs ≠ .host tx :: rest) ∧ t = consume s) ∨
    ((∃ rest, s.inputs = .powerOn :: rest) ∧ t = powerOnReset (consume s)) ∨
    (∃ tx rest, s.inputs = .host tx :: rest ∧ (∃ i, decode (.tx tx) = .ok i) ∧
      HostEffect tx (consume s) t) ∨
    (s.busy = true ∧ (∀ tx rest, s.inputs ≠ .host tx :: rest) ∧ EngineEffect (consume s) t) := by
  rcases step_cases h with ⟨hf, hb, ht⟩ | hp | ⟨tx, rest, i, hi, hd, he⟩ | ⟨hb, hi, i, hd, he⟩
  · refine .inl ⟨hb, fun tx rest hi => ?_, ht⟩
    simp [fetched, hi] at hf
  · exact .inr (.inl hp)
  · exact .inr (.inr (.inl ⟨tx, rest, hi, ⟨i, hd⟩, hostEffect_of_exec hd he⟩))
  · refine .inr (.inr (.inr ⟨hb, fun tx rest hi' => ?_, engineEffect_of_exec hb hd he⟩))
    rcases hi with hi | ⟨r, hi⟩ <;> simp [hi] at hi'

end Sys2Proof.Machine
end

