-- ==== Sys2Proof/Tests/Slice0.lean ====
section
/-! SUPPORT. Tests. Expected values come from spec/ (95_test_vectors.md or the rule named), never from the
model. Then, for every statement with hypotheses, a state and operands that meet them together. -/
namespace Sys2Proof.Machine.Tests

/-! ### Helpers -/

/-- The next state of an outcome, if it has one. -/
def nextState (o : Host.Outcome State Fault Refusal) : Option State :=
  match o with
  | .next s => some s
  | .fault _ => none
  | .refused _ => none

/-- Whether a property holds of the next state. -/
def holdsNext (o : Host.Outcome State Fault Refusal) (p : State → Bool) : Bool :=
  match nextState o with
  | some s => p s
  | none => false

/-- Bytes stored one after the other from an offset on. -/
def memAt (a : Nat) (f : List Byte) : Memory := Memory.writeBytes [] a f

/-- A pending command over a buffer of which `n` bytes are the input. -/
def pending (op : BitVec 3) (n : BitVec 16) (f : List Byte) : State :=
  { State.reset with cmdOp := op, busy := true, ibufLen := n, mem := memAt 0x400 f }

/-- A state whose next event is a host transaction. -/
def hostNext (tx : Transaction) (s : State) : State := { s with inputs := [.host tx] }

/-- The test configuration TC of 95_test_vectors.md §0. -/
def TC : Codes := ⟨0xE0, 0xE1, 0xE2, 0xE3, 0xE4, 0xE5, 0xE6⟩

/-- The volume frame of 95_test_vectors.md W2. -/
def volumeFrame : List Byte := [0x55, 0xAA, 0x01, 0x84, 0x04, 0x20, 0x57]

/-- The light status frame of 95_test_vectors.md W1. -/
def lightFrame : List Byte :=
  [0x55, 0xAA, 0x09, 0x88, 0x15, 0, 0, 0, 0x75, 0x8A, 0x8D, 0x01, 0x00, 0x50, 0x7D]

/-! ### Well-formedness: one ill-formed term for each check (30_encoding.md R69) -/

theorem test_sw_outside_register_window : (Instr.sw 0x400 0).wellFormed = false := by decide
theorem test_sw_misaligned : (Instr.sw 0x00D 0).wellFormed = false := by decide
theorem test_sw_own_rows : (Instr.sw 0x000 0).wellFormed = false ∧ (Instr.sw 0x004 0).wellFormed = false ∧
    (Instr.sw 0x008 0).wellFormed = false := by decide
theorem test_lw_outside_register_window : (Instr.lw 0x800).wellFormed = false := by decide
theorem test_lw_misaligned : (Instr.lw 0x3FE).wellFormed = false := by decide
theorem test_sb_inside_register_window : (Instr.sb 0x3FF 0).wellFormed = false := by decide
theorem test_lb_inside_register_window : (Instr.lb 0x000).wellFormed = false := by decide

/-! ### Decoding, on words written out from 30_encoding.md R55 to R59 and R69 -/

theorem test_decode_command_starts :
    decode (.tx ⟨.write, 4, 0x000, 0b001⟩) = .ok (.cksum .start) ∧
    decode (.tx ⟨.write, 4, 0x000, 0b010⟩) = .ok (.encode .start) ∧
    decode (.tx ⟨.write, 4, 0x000, 0b011⟩) = .ok (.decode .start) ∧
    decode (.tx ⟨.write, 4, 0x000, 0b000⟩) = .ok (.reservedOp0 .start) ∧
    decode (.tx ⟨.write, 4, 0x000, 0b100⟩) = .ok (.reservedOp4 .start) ∧
    decode (.tx ⟨.write, 4, 0x000, 0b101⟩) = .ok (.reservedOp5 .start) ∧
    decode (.tx ⟨.write, 4, 0x000, 0b110⟩) = .ok (.reservedOp6 .start) ∧
    decode (.tx ⟨.write, 4, 0x000, 0b111⟩) = .ok (.reservedOp7 .start) :=
  ⟨rfl, rfl, rfl, rfl, rfl, rfl, rfl, rfl⟩
/-- 44_command_interface.md R111: bits 31..3 are ignored. -/
theorem test_decode_cmd_ignored_bits : decode (.tx ⟨.write, 4, 0x000, 0xFFFFFFF9⟩) = .ok (.cksum .start) := rfl
theorem test_decode_command_completions :
    decode (.op 1) = .ok (.cksum .complete) ∧ decode (.op 2) = .ok (.encode .complete) ∧
    decode (.op 3) = .ok (.decode .complete) ∧ decode (.op 0) = .ok (.reservedOp0 .complete) ∧
    decode (.op 4) = .ok (.reservedOp4 .complete) ∧ decode (.op 5) = .ok (.reservedOp5 .complete) ∧
    decode (.op 6) = .ok (.reservedOp6 .complete) ∧ decode (.op 7) = .ok (.reservedOp7 .complete) :=
  ⟨rfl, rfl, rfl, rfl, rfl, rfl, rfl, rfl⟩
theorem test_decode_srst : decode (.tx ⟨.write, 4, 0x008, 0x80000000⟩) = .ok .srst ∧
    decode (.tx ⟨.write, 4, 0x008, 0x80000001⟩) = .ok .srst := ⟨rfl, rfl⟩
/-- V-BUS12: bit 31 is clear. -/
theorem test_decode_ctrl : decode (.tx ⟨.write, 4, 0x008, 0x7FFFFFFF⟩) = .ok (.setCtrl true) ∧
    decode (.tx ⟨.write, 4, 0x008, 0x00000000⟩) = .ok (.setCtrl false) := ⟨rfl, rfl⟩
/-- 30_encoding.md R71, `clr`; bits 1 and 8. -/
theorem test_decode_status : decode (.tx ⟨.write, 4, 0x004, 0x102⟩) = .ok (.clearStatus true true) ∧
    decode (.tx ⟨.write, 4, 0x004, 0x002⟩) = .ok (.clearStatus true false) ∧
    decode (.tx ⟨.write, 4, 0x004, 0xFFFFFEFD⟩) = .ok (.clearStatus false false) := ⟨rfl, rfl, rfl⟩
theorem test_decode_sw_lw : decode (.tx ⟨.write, 4, 0x018, 0x1234⟩) = .ok (.sw 0x018 0x1234) ∧
    decode (.tx ⟨.read, 4, 0x3FC, 0⟩) = .ok (.lw 0x3FC) := ⟨rfl, rfl⟩
theorem test_decode_sb_lb : decode (.tx ⟨.write, 1, 0x405, 0x20⟩) = .ok (.sb 0x405 0x20) ∧
    decode (.tx ⟨.read, 1, 0xFFF, 0⟩) = .ok (.lb 0xFFF) := ⟨rfl, rfl⟩
/-- 30_encoding.md R59: the two keys whose codes are fixed, as the code and as an opcode-table word. -/
theorem test_decode_fixed_keys : decode (.key 0x8815) = .ok .frameLightStatus ∧
    decode (.key 0x8404) = .ok .frameSpeakerVolume ∧
    decodeTableWord 16 0x8815 = some .frameLightStatus ∧
    decodeTableWord 16 0x8404 = some .frameSpeakerVolume := ⟨rfl, rfl, rfl, rfl⟩
/-- 95_test_vectors.md §0: the eight keys under TC; V-DE5, V-DE10, V-DE11: keys of no entry. -/
theorem test_decode_keys_under_tc :
    decodeKey TC 0x8815 = some .lightStatus ∧ decodeKey TC 0xE0E1 = some .timerAutoLight ∧
    decodeKey TC 0xE0E2 = some .timerAutoMusic ∧ decodeKey TC 0xE0E3 = some .timerAlarm1 ∧
    decodeKey TC 0xE0E4 = some .timerAlarm2 ∧ decodeKey TC 0xE0E5 = some .timerAlarm3 ∧
    decodeKey TC 0x8404 = some .speakerVolume ∧ decodeKey TC 0x84E6 = some .speakerEqualizer ∧
    decodeKey TC 0x0000 = none ∧ decodeKey TC 0x8405 = none ∧ decodeKey TC 0x8804 = none := by decide
/-- V-BUS1 to V-BUS5. -/
theorem test_decode_rejects_illegal :
    decode (.tx ⟨.read, 1, 0x000, 0⟩) = .error (.registerWidth 0x000) ∧
    decode (.tx ⟨.write, 4, 0x402, 0⟩) = .error (.bufferWidth 0x402) ∧
    decode (.tx ⟨.read, 4, 0x800, 0⟩) = .error (.bufferWidth 0x800) ∧
    decode (.tx ⟨.write, 4, 0x001, 1⟩) = .error (.misaligned 0x001) ∧
    decode (.tx ⟨.read, 2, 0x004, 0⟩) = .error (.registerWidth 0x004) := ⟨rfl, rfl, rfl, rfl, rfl⟩

/-! ### The pure functions (95_test_vectors.md §2 to §4) -/

/-- V-CK1, V-CK3 to V-CK7, V-CK10 to V-CK12. -/
theorem test_checksum_vectors :
    checksum [] = 0xFF ∧ checksum [0x01] = 0xFE ∧ checksum [0xFF] = 0x00 ∧ checksum [0x55, 0xAA] = 0x00 ∧
    checksum [0x80, 0x80] = 0xFF ∧ checksum [0xFF, 0xFF] = 0x01 ∧ checksum [0, 0, 0, 0x10] = 0xEF ∧
    checksum (volumeFrame.take 6) = 0x57 ∧ checksum (lightFrame.take 14) = 0x7D := by decide
/-- V-EN1 to V-EN5, V-EN7. -/
theorem test_encode_vectors :
    encodeFrame 0x84 0x04 [0x20] = some volumeFrame ∧
    encodeFrame 0x84 0x04 [] = some [0x55, 0xAA, 0x00, 0x84, 0x04, 0x78] ∧
    encodeFrame 0x00 0x00 [] = some [0x55, 0xAA, 0x00, 0x00, 0x00, 0x00] ∧
    encodeFrame 0xFF 0xFF [0xFF] = some [0x55, 0xAA, 0x01, 0xFF, 0xFF, 0xFF, 0x02] ∧
    encodeFrame 0x88 0x15 [0, 0, 0, 0x75, 0x8A, 0x8D, 0x01, 0x00, 0x50] = some lightFrame ∧
    encodeFrame 0x12 0x34 [0x56, 0x78, 0x9A] =
      some [0x55, 0xAA, 0x03, 0x12, 0x34, 0x56, 0x78, 0x9A, 0x4F] := by decide
/-- 41_frame_builder.md R79: a call with no data, with one byte, with a sequence (V-EN2, V-EN1, V-EN7). -/
theorem test_encode_message_forms :
    encodeMessage 0x84 0x04 .nothing = some [0x55, 0xAA, 0x00, 0x84, 0x04, 0x78] ∧
    encodeMessage 0x84 0x04 (.single 0x20) = some volumeFrame ∧
    encodeMessage 0x12 0x34 (.sequence [0x56, 0x78, 0x9A]) =
      some [0x55, 0xAA, 0x03, 0x12, 0x34, 0x56, 0x78, 0x9A, 0x4F] := by decide
/-- V-DE1 to V-DE11, and 42_frame_parser.md R84 for an absent buffer. -/
theorem test_decode_frame_short_and_volume :
    decodeFrame TC none = .empty ∧ decodeFrame TC (some []) = .empty ∧
    decodeFrame TC (some [0x55]) = .truncated ∧
    decodeFrame TC (some [0x55, 0xAA, 0x01, 0x84]) = .truncated ∧
    decodeFrame TC (some [0x55, 0xAA, 0x01, 0x84, 0x04]) = .truncated ∧
    decodeFrame TC (some [0x55, 0xAA, 0, 0, 0]) = .empty ∧
    decodeFrame TC (some volumeFrame) = .fields .speakerVolume [0x20] ∧
    decodeFrame TC (some [0x55, 0xAA, 0x00, 0x84, 0x04, 0x78]) = .fields .speakerVolume [0x78] ∧
    decodeFrame TC (some [0x00, 0x00, 0x7F, 0x84, 0x04, 0x20, 0x57]) = .fields .speakerVolume [0x20] ∧
    decodeFrame TC (some [0x55, 0xAA, 0x01, 0x84, 0x05, 0x20, 0x56]) = .empty ∧
    decodeFrame TC (some [0x55, 0xAA, 0x01, 0x88, 0x04, 0x20, 0x53]) = .empty := by decide
/-- V-DE12 to V-DE14. -/
theorem test_decode_frame_light :
    decodeFrame TC (some lightFrame) = .fields .lightStatus [0, 0, 0, 0x75, 0x8A, 0x8D, 0x01, 0x00] ∧
    decodeFrame TC (some (lightFrame.take 12)) = .truncated ∧
    decodeFrame TC (some (lightFrame.take 13)) =
      .fields .lightStatus [0, 0, 0, 0x75, 0x8A, 0x8D, 0x01, 0x00] := by decide
/-- V-DE16, V-DE15, V-DE17, V-DE19, V-DE20, V-DE22, V-DE24, V-DE25. -/
theorem test_decode_frame_open_codes :
    decodeFrame TC (some [0x55, 0xAA, 5, 0xE0, 0xE1, 1, 6, 0x1E, 0x16]) = .truncated ∧
    decodeFrame TC (some [0x55, 0xAA, 5, 0xE0, 0xE1, 1, 6, 0x1E, 0x16, 0, 0xFF]) =
      .fields .timerAuto [0xE1, 1, 6, 0x1E, 0x16, 0] ∧
    decodeFrame TC (some [0x55, 0xAA, 5, 0xE0, 0xE2, 0, 7, 0, 8, 0]) =
      .fields .timerAuto [0xE2, 0, 7, 0, 8, 0] ∧
    decodeFrame TC (some [0x55, 0xAA, 10, 0xE0, 0xE3, 0, 0, 0, 0, 0, 0, 7, 0x1E, 0]) = .truncated ∧
    decodeFrame TC (some [0x55, 0xAA, 10, 0xE0, 0xE3, 0, 0, 0, 0, 0, 0, 7, 0x1E, 0, 1]) =
      .fields .timerAlarm [0xE3, 7, 0x1E, 1] ∧
    decodeFrame TC (some [0x55, 0xAA, 10, 0xE0, 0xE5, 0, 0, 0, 0, 0, 0, 0x12, 0x34, 0, 1, 0xEA]) =
      .fields .timerAlarm [0xE5, 0x12, 0x34, 1] ∧
    decodeFrame TC (some [0x55, 0xAA, 5, 0x84, 0xE6, 10, 11, 12, 13]) = .truncated ∧
    decodeFrame TC (some [0x55, 0xAA, 4, 0x84, 0xE6, 1, 2, 3, 4, 0x88]) =
      .fields .speakerEqualizer [1, 2, 3, 4, 0x88] := by decide
/-- 95_test_vectors.md §4, "Dispatch order under an ill-formed configuration": entry 7 precedes entry 8. -/
theorem test_dispatch_order :
    ¬({ TC with fnSpeakerEqualizer := 0x04 } : Codes).WellFormed ∧
    decodeFrame { TC with fnSpeakerEqualizer := 0x04 } (some volumeFrame) =
      .fields .speakerVolume [0x20] := by decide

/-! ### Commands, one completion step each (95_test_vectors.md §6) -/

/-- 40_checksum.md R77, its example. -/
theorem test_cksum_example : holdsNext (exec (.cksum .complete) (pending 1 14 lightFrame))
    (fun t => t.cksumResult == 0x7D && statusValue t == 0x02) = true := by decide
/-- V-CMD1, V-CMD3. -/
theorem test_cksum_empty_and_too_long :
    holdsNext (exec (.cksum .complete) (pending 1 0 []))
      (fun t => t.cksumResult == 0xFF && statusValue t == 0x02) = true ∧
    holdsNext (exec (.cksum .complete) { pending 1 513 [] with cksumResult := 0x57 })
      (fun t => t.cksumResult == 0x00 && statusValue t == 0x42) = true := by decide
/-- 95_test_vectors.md P1. -/
theorem test_encode_volume :
    holdsNext (exec (.encode .complete) { pending 2 1 [0x20] with encCat := 0x84, encFn := 0x04 })
      (fun t => t.obuf 7 == volumeFrame && t.obufLen == 7 && t.cksumResult == 0x57 &&
        statusValue t == 0x02) = true := by decide
/-- V-CMD7, V-CMD8. -/
theorem test_encode_errors :
    holdsNext (exec (.encode .complete) { pending 2 256 [] with obufLen := 261, mem := memAt 0x800 [0x55] })
      (fun t => t.obufLen == 0 && t.cksumResult == 0 && t.mem == memAt 0x800 [0x55] &&
        statusValue t == 0x22) = true ∧
    holdsNext (exec (.encode .complete) (pending 2 600 []))
      (fun t => t.obufLen == 0 && t.cksumResult == 0 && statusValue t == 0x42) = true := by decide +kernel
/-- V-CMD10, by the DECODE row. -/
theorem test_decode_command_light : holdsNext (exec (.decode .complete) (pending 3 15 lightFrame))
    (fun t => t.decKind == 1 && t.decCount == 8 && t.decField == #v[0, 0, 0, 0x75, 0x8A, 0x8D, 1, 0] &&
      statusValue t == 0x02) = true := by decide
/-- V-CMD11, V-CMD15, V-CMD18: the fields of an earlier frame are cleared. -/
theorem test_decode_command_errors :
    holdsNext (exec (.decode .complete) { pending 3 4 lightFrame with decKind := 1, decCount := 8 })
      (fun t => t.decKind == 0 && t.decCount == 0 && statusValue t == 0x12) = true ∧
    holdsNext (exec (.decode .complete) { pending 3 513 [] with decField := Vector.replicate 8 7 })
      (fun t => t.decField == Vector.replicate 8 0 && statusValue t == 0x42) = true ∧
    holdsNext (exec (.decode .complete) { pending 3 0 [] with decKind := 1 })
      (fun t => t.decKind == 0 && statusValue t == 0x02) = true := by decide
/-- V-CMD13, V-CMD14, P4 line 2. -/
theorem test_reserved_operations :
    holdsNext (exec (.reservedOp0 .complete) (pending 0 0 [])) (fun t => statusValue t == 0x32) = true ∧
    holdsNext (exec (.reservedOp4 .complete) (pending 4 0 [])) (fun t => statusValue t == 0x32) = true ∧
    holdsNext (exec (.reservedOp5 .complete) { pending 5 15 [] with decKind := 1 })
      (fun t => statusValue t == 0x32 && t.decKind == 1 && t.cmdOp == 5) = true ∧
    holdsNext (exec (.reservedOp6 .complete) (pending 6 0 [])) (fun t => statusValue t == 0x32) = true ∧
    holdsNext (exec (.reservedOp7 .complete) (pending 7 600 [])) (fun t => statusValue t == 0x32) = true := by
  decide
/-- V-CMD19; V-BUS14: a second CMD write is dropped. -/
theorem test_command_start :
    holdsNext (step (hostNext ⟨.write, 4, 0x000, 0xFFFFFFF9⟩ State.reset))
      (fun t => t.cmdOp == 1 && statusValue t == 0x01) = true ∧
    holdsNext (step (hostNext ⟨.write, 4, 0x000, 2⟩ (pending 1 0 [])))
      (fun t => t.cmdOp == 1 && statusValue t == 0x101) = true := by decide
/-- V-DE6, V-DE12 as engine steps: the fetch finds the entry's key. -/
theorem test_frame_steps :
    engineCode (pending 3 7 volumeFrame) = .key 0x8404 ∧
    holdsNext (step (pending 3 7 volumeFrame))
      (fun t => t.decKind == 4 && t.decCount == 1 && t.decField == #v[0x20, 0, 0, 0, 0, 0, 0, 0] &&
        statusValue t == 0x02) = true ∧
    engineCode (pending 3 15 lightFrame) = .key 0x8815 ∧
    holdsNext (step (pending 3 15 lightFrame)) (fun t => t.decKind == 1 && t.decCount == 8) = true := by decide

/-! ### Host transactions (95_test_vectors.md §7, §8) -/

/-- V-BUS11. -/
theorem test_status_write :
    holdsNext (step (hostNext ⟨.write, 4, 0x004, 0xFFFFFFFF⟩
      { State.reset with done := true, err := 2, busyWr := true }))
      (fun t => statusValue t == 0x20) = true := by decide
/-- V-BUS12. -/
theorem test_ctrl_write :
    holdsNext (step (hostNext ⟨.write, 4, 0x008, 0x7FFFFFFF⟩ State.reset))
      (fun t => t.irqEn && readRegister .ctrl t == 1) = true := by decide
/-- V-RST2: a pending command is discarded, IBUF is kept, BUSY_WR is cleared. -/
theorem test_soft_reset :
    holdsNext (step (hostNext ⟨.write, 4, 0x008, 0x80000000⟩
      { pending 1 7 volumeFrame with irqEn := true, busyWr := true, cksumResult := 3 }))
      (fun t => t == { State.reset with mem := memAt 0x400 volumeFrame, resp := .ack }) = true := by decide
/-- V-CMD9; V-BUS13. -/
theorem test_sw_input_register :
    holdsNext (step (hostNext ⟨.write, 4, 0x014, 0x1234⟩ State.reset)) (fun t => t.encCat == 0x34) = true ∧
    holdsNext (step (hostNext ⟨.write, 4, 0x00C, 5⟩ (pending 1 0 [])))
      (fun t => t.ibufLen == 0 && statusValue t == 0x101) = true := by decide
/-- V-BUS10. -/
theorem test_sw_read_only :
    holdsNext (step (hostNext ⟨.write, 4, 0x010, 0⟩ { State.reset with obufLen := 7 }))
      (fun t => t.obufLen == 7) = true := by decide
/-- 44_command_interface.md R112, its example; V-BUS6. -/
theorem test_lw :
    holdsNext (exec (.lw 0x004) { State.reset with done := true, err := 1 })
      (fun t => t.resp == .word 0x12) = true ∧
    holdsNext (exec (.lw 0x3FC) State.reset) (fun t => t.resp == .word 0) = true := by decide
/-- 10_state.md R16: field i stands at 0x040 + 4 * i. -/
theorem test_lw_field :
    holdsNext (exec (.lw 0x05C) { State.reset with decField := #v[1, 2, 3, 4, 5, 6, 7, 8] })
      (fun t => t.resp == .word 8) = true := by decide
/-- V-BUS18, V-BUS9. -/
theorem test_sb :
    holdsNext (exec (.sb 0x5FF 0xAB) State.reset)
      (fun t => t.readByte 0x5FF == 0xAB && t.ibufLen == 0) = true ∧
    holdsNext (exec (.sb 0x800 0x12) State.reset) (fun t => t.mem == [] && !t.busyWr) = true := by decide
/-- V-BUS16; V-BUS7, V-BUS8. -/
theorem test_lb :
    holdsNext (exec (.lb 0x405) (pending 1 7 volumeFrame)) (fun t => t.resp == .byte 0x20) = true ∧
    holdsNext (exec (.lb 0x700) State.reset) (fun t => t.resp == .byte 0) = true ∧
    holdsNext (exec (.lb 0xFFF) State.reset) (fun t => t.resp == .byte 0) = true := by decide
/-- V-BUS4. -/
theorem test_bus_error : step (hostNext ⟨.write, 4, 0x001, 1⟩ State.reset) = .fault (.busError 0x001) := rfl
/-- V-RST6, V-RST7: IRQ is a level. -/
theorem test_irq_level :
    holdsNext (exec (.setCtrl true) { State.reset with done := true }) (fun t => t.irq) = true ∧
    holdsNext (exec (.cksum .start) { State.reset with done := true, irqEn := true })
      (fun t => !t.irq) = true := by decide

/-! ### The opcode table's words, from reset -/

/-- One word of each width that spec/opcode_table.json gives its rows. -/
theorem test_table_words :
    decodeTableWord 8 0x03 = some (.decode .start) ∧ decodeTableWord 32 0x80000000 = some .srst ∧
    decodeTableWord 0 0 = some (.clearStatus false false) := ⟨rfl, rfl, rfl⟩
theorem test_table_words_run_after_reset :
    holdsNext (step (State.reset.withFetchWord 8 0x03)) (fun t => t.busy && t.cmdOp == 3) = true ∧
    holdsNext (step (State.reset.withFetchWord 16 0x8404))
      (fun t => t.decKind == 4 && statusValue t == 0x02) = true := by decide

/-! ### No statement has empty hypotheses: a state and operands for each -/

theorem witness_DecodeInvertsEncode : (Instr.sw 0x3FC 5).wellFormed = true ∧
    (Instr.lw 0x000).wellFormed = true ∧ (Instr.sb 0x400 1).wellFormed = true ∧
    (Instr.lb 0xFFF).wellFormed = true := by decide
theorem witness_DecodedInstructionIsWellFormed :
    decode (.tx ⟨.read, 4, 0x3FC, 0⟩) = .ok (.lw 0x3FC) := rfl
/-- KeyDecoderMatchesTableOrder, FirstMatchingEntryIsTaken. -/
theorem witness_wellFormed_codes : TC.WellFormed ∧
    Entry.category TC .timerAlarm3 = Entry.category TC .timerAlarm3 ∧
    Entry.function TC .timerAlarm3 = Entry.function TC .timerAlarm3 := by decide
/-- Every clause of LegalTransactionsAreExactlyTwoCases at the ends of its range. -/
theorem witness_LegalTransactionsAreExactlyTwoCases :
    ((4 = 4 ∧ (0x3FC : Offset).toNat < 0x400 ∧ (0x3FC : Offset).toNat % 4 = 0)) ∧
    ((1 = 1 ∧ 0x400 ≤ (0x400 : Offset).toNat) ∧ 0x400 ≤ (0xFFF : Offset).toNat) ∧
    ¬((4 = 4 ∧ (0x400 : Offset).toNat < 0x400 ∧ (0x400 : Offset).toNat % 4 = 0) ∨
      (4 = 1 ∧ 0x400 ≤ (0x400 : Offset).toNat)) ∧
    (hostNext ⟨.write, 4, 0x400, 0⟩ State.reset).inputs = [.host ⟨.write, 4, 0x400, 0⟩] := by decide
theorem witness_FrameSumsToAllOnes : encodeFrame 0 0 [] = some [0x55, 0xAA, 0, 0, 0, 0] := by decide
theorem witness_AccumulatorInAnyOrderGivesChecksum : ([1, 2, 3] : List Byte).Perm [3, 1, 2] := by decide
theorem witness_EncodedFrameLayout : (List.replicate 255 (0xFF : Byte)).length ≤ 255 := by
  rw [List.length_replicate]
/-- ShortIsTruncatedAndUnknownIsEmpty, at 1, 4 and 5 bytes. -/
theorem witness_ShortIsTruncatedAndUnknownIsEmpty :
    1 ≤ ([0x55] : List Byte).length ∧ ([0x55, 0xAA, 1, 0x84] : List Byte).length ≤ 4 ∧
    5 ≤ ([0x55, 0xAA, 0, 0, 0] : List Byte).length ∧
    ∀ e ∈ dispatchTable, ¬((0 : Byte) = e.category TC ∧ (0 : Byte) = e.function TC) := by decide
/-- MatchedEntryGivesItsFields, at the minimum length of the volume entry and one byte below it. -/
theorem witness_MatchedEntryGivesItsFields :
    TC.WellFormed ∧ byteAt volumeFrame 3 = Entry.category TC .speakerVolume ∧
    byteAt volumeFrame 4 = Entry.function TC .speakerVolume ∧
    (volumeFrame.take 5).length < kindMinLen (entryKind .speakerVolume) ∧ 5 ≤ (volumeFrame.take 5).length ∧
    kindMinLen (entryKind .speakerVolume) ≤ (volumeFrame.take 6).length := by decide
/-- DecodeReadsNoOtherByte: V-DE6 and V-DE9. -/
theorem witness_DecodeReadsNoOtherByte :
    volumeFrame.length = ([0x00, 0x00, 0x7F, 0x84, 0x04, 0x20, 0x00] : List Byte).length ∧
    dispatch TC 0x84 0x04 = some .speakerVolume ∧
    ∀ o ∈ kindOffsets (entryKind .speakerVolume),
      byteAt volumeFrame o = byteAt [0x00, 0x00, 0x7F, 0x84, 0x04, 0x20, 0x00] o := by decide
/-- EncodedFrameIsRecognised: the shortest payload of the volume entry. -/
theorem witness_EncodedFrameIsRecognised :
    TC.WellFormed ∧ ([] : List Byte).length ≤ 255 ∧
    kindMinLen (entryKind .speakerVolume) ≤ ([] : List Byte).length + 6 := by decide
/-- IdleCmdWriteStartsTheCommand, IdleInputRegisterWrites, IdleBlockChangesNothing (with an empty agenda). -/
theorem witness_idle : State.reset.busy = false ∧ State.reset.inputs = [] ∧
    ({ State.reset with inputs := [.engine] } : State).inputs = [.engine] := by decide
/-- BusyInputWritesAreDropped and the second clause of SbWritesOneInputByte, at the ends of IBUF. -/
theorem witness_BusyInputWritesAreDropped : (pending 1 0 []).busy = true ∧
    0x400 ≤ (0x400 : Offset).toNat ∧ (0x5FF : Offset).toNat ≤ 0x5FF := by decide
/-- PendingCommandKeepsItsInputsAndResults: a read while busy. -/
theorem witness_PendingCommandKeepsItsInputsAndResults :
    ∃ t, (pending 1 0 []).busy = true ∧
      step (hostNext ⟨.read, 4, 0x004, 0⟩ (pending 1 0 [])) = .next t ∧ t.busy = true := ⟨_, rfl, rfl, rfl⟩
theorem witness_CksumCompletion : (pending 1 513 []).busy = true ∧ (pending 1 513 []).cmdOp = 1 := by decide
/-- EncodeCompletion, at the ends of its three ranges. -/
theorem witness_EncodeCompletion : (pending 2 0 []).busy = true ∧ (pending 2 0 []).cmdOp = 2 ∧
    (pending 2 255 []).ibufLen.toNat ≤ 255 ∧ 255 < (pending 2 256 []).ibufLen.toNat ∧
    (pending 2 512 []).ibufLen.toNat ≤ 512 ∧ 512 < (pending 2 513 []).ibufLen.toNat := by decide
/-- DecodeCompletion, DecodeTwiceGivesTheSameResults. -/
theorem witness_DecodeCompletion : (pending 3 7 volumeFrame).busy = true ∧
    (pending 3 7 volumeFrame).cmdOp = 3 := by decide
theorem witness_ReservedOperationsFailWithBadCommand : (pending 0 0 []).busy = true ∧
    (pending 0 0 []).cmdOp = 0 ∧ (pending 4 0 []).cmdOp = 4 ∧ (pending 5 0 []).cmdOp = 5 ∧
    (pending 6 0 []).cmdOp = 6 ∧ (pending 7 0 []).cmdOp = 7 := by decide

/-- A pending DECODE of `n` bytes, of which bytes 3 and 4 are the given codes. -/
def pendingKey (n : BitVec 16) (cat fn : Byte) : State :=
  { pending 3 n [] with mem := [(0x403, cat), (0x404, fn)] }

/-- The premises of a frame statement hold for every pair of codes, at both ends of the length range. -/
theorem witness_frame_premises (cat fn : Byte) :
    (pendingKey 5 cat fn).busy = true ∧ (pendingKey 5 cat fn).cmdOp = 3 ∧
    5 ≤ (pendingKey 5 cat fn).ibufLen.toNat ∧ (pendingKey 512 cat fn).ibufLen.toNat ≤ 512 ∧
    (pendingKey 5 cat fn).readByte 0x403 = cat ∧ (pendingKey 5 cat fn).readByte 0x404 = fn ∧
    (pendingKey 512 cat fn).readByte 0x403 = cat ∧ (pendingKey 512 cat fn).readByte 0x404 = fn :=
  ⟨rfl, rfl, Nat.le_refl 5, Nat.le_refl 512, rfl, rfl, rfl, rfl⟩
theorem witness_LightStatusFrameCompletion : (pendingKey 13 0x88 0x15).readByte 0x403 = 0x88 ∧
    (pendingKey 13 0x88 0x15).readByte 0x404 = 0x15 := ⟨rfl, rfl⟩
theorem witness_TimerAutoFrameCompletion :
    (pendingKey 10 Config.codes.catTimer Config.codes.fnTimerAutoLight).readByte 0x403 =
      Config.codes.catTimer ∧
    (pendingKey 10 Config.codes.catTimer Config.codes.fnTimerAutoLight).readByte 0x404 =
      Config.codes.fnTimerAutoLight := ⟨rfl, rfl⟩
theorem witness_TimerAlarmFrameCompletion :
    (pendingKey 15 Config.codes.catTimer Config.codes.fnTimerAlarm3).readByte 0x403 =
      Config.codes.catTimer ∧
    (pendingKey 15 Config.codes.catTimer Config.codes.fnTimerAlarm3).readByte 0x404 =
      Config.codes.fnTimerAlarm3 := ⟨rfl, rfl⟩
theorem witness_SpeakerVolumeFrameCompletion : (pendingKey 6 0x84 0x04).readByte 0x403 = 0x84 ∧
    (pendingKey 6 0x84 0x04).readByte 0x404 = 0x04 := ⟨rfl, rfl⟩
theorem witness_SpeakerEqualizerFrameCompletion :
    (pendingKey 10 0x84 Config.codes.fnSpeakerEqualizer).readByte 0x403 = 0x84 ∧
    (pendingKey 10 0x84 Config.codes.fnSpeakerEqualizer).readByte 0x404 =
      Config.codes.fnSpeakerEqualizer := ⟨rfl, rfl⟩
theorem witness_FrameInstructionAgreesWithDecode : readsKey (pendingKey 5 0x84 0x04) = true ∧
    inputKey (pendingKey 5 0x84 0x04) = Entry.key Config.codes .speakerVolume := ⟨rfl, rfl⟩
/-- The three clauses of StepRunsTheDecodedInstruction. -/
theorem witness_StepRunsTheDecodedInstruction :
    (hostNext ⟨.read, 4, 0x004, 0⟩ State.reset).inputs = .host ⟨.read, 4, 0x004, 0⟩ :: [] ∧
    decode (.tx ⟨.read, 4, 0x004, 0⟩) = .ok (.lw 0x004) ∧
    (pending 3 7 volumeFrame).busy = true ∧ (pending 3 7 volumeFrame).inputs = [] ∧
    decode (engineCode (pending 3 7 volumeFrame)) = .ok .frameSpeakerVolume ∧
    ({ pending 1 0 [] with inputs := [.engine] } : State).inputs = .engine :: [] ∧
    decode (engineCode { pending 1 0 [] with inputs := [.engine] }) = .ok (.cksum .complete) :=
  ⟨rfl, rfl, rfl, rfl, rfl, rfl, rfl⟩
theorem witness_EngineStepCompletesThePendingCommand :
    ({ pending 7 0 [] with inputs := [.engine] } : State).busy = true ∧
    ({ pending 7 0 [] with inputs := [.engine] } : State).inputs = .engine :: [] ∧
    ({ pending 7 0 [] with inputs := [.engine] } : State).cmdOp = 7 := ⟨rfl, rfl, rfl⟩
theorem witness_LegalAgendaNeverStops :
    inputsLegal { State.reset with
      inputs := [.host ⟨.write, 4, 0x000, 3⟩, .engine, .host ⟨.read, 1, 0x400, 0⟩, .powerOn] } = true := by
  decide
/-- OtherRegisterWritesAreIgnored: a read-only register and the last reserved offset. -/
theorem witness_OtherRegisterWritesAreIgnored :
    ∀ a ∈ [(0x010 : Offset), 0x3FC], a.toNat < 0x400 ∧ a.toNat % 4 = 0 ∧ a ≠ 0x000 ∧ a ≠ 0x004 ∧ a ≠ 0x008 ∧
      a ≠ 0x00C ∧ a ≠ 0x014 ∧ a ≠ 0x018 := by decide
/-- LwReturnsTheRegister: the ends of the two reserved ranges, none of which is a listed offset. -/
theorem witness_LwReturnsTheRegister :
    ∀ a ∈ [(0x028 : Offset), 0x03C, 0x060, 0x3FC], a.toNat < 0x400 ∧ a.toNat % 4 = 0 ∧
      ((0x028 ≤ a.toNat ∧ a.toNat < 0x040) ∨ 0x060 ≤ a.toNat) ∧ regAt a = .reserved := by decide
/-- SbWritesOneInputByte and LbReturnsTheByte: the ends of each range. -/
theorem witness_SbWritesOneInputByte_LbReturnsTheByte :
    State.reset.busy = false ∧ 0x400 ≤ (0x400 : Offset).toNat ∧ (0x5FF : Offset).toNat ≤ 0x5FF ∧
    0x600 ≤ (0x600 : Offset).toNat ∧ (0x7FF : Offset).toNat ≤ 0x7FF ∧ 0x800 ≤ (0x800 : Offset).toNat ∧
    (0x9FF : Offset).toNat ≤ 0x9FF ∧ 0xA00 ≤ (0xA00 : Offset).toNat ∧
    0xA00 ≤ (0xFFF : Offset).toNat := by decide
theorem witness_OperandsOutsideTheWindowFault :
    ¬((0x400 : Offset).toNat < 0x400 ∧ (0x400 : Offset).toNat % 4 = 0) ∧
    ¬((0x001 : Offset).toNat < 0x400 ∧ (0x001 : Offset).toNat % 4 = 0) ∧
    (0x3FF : Offset).toNat < 0x400 := by decide
/-- OnlyEncodeChangesTheOutputBuffer: an ENCODE changes OBUF_LEN, and the byte OBUF[0] from 0 to 0x55; a soft
reset changes OBUF_LEN. -/
theorem witness_OnlyEncodeChangesTheOutputBuffer :
    (∃ t, step { pending 2 0 [] with mem := [(0x800, 0)] } = .next t ∧ t.obufLen ≠ 0 ∧
      t.readByte 0x800 ≠ ({ pending 2 0 [] with mem := [(0x800, 0)] } : State).readByte 0x800) ∧
    (∃ t, step (hostNext ⟨.write, 4, 0x008, 0x80000000⟩ { State.reset with obufLen := 7 }) = .next t ∧
      t.obufLen ≠ 7) ∧
    ∀ rest, (pending 2 0 []).inputs ≠ .powerOn :: rest :=
  ⟨⟨_, rfl, by decide, by decide⟩, ⟨_, rfl, by decide⟩, fun _ h => nomatch h⟩
theorem witness_OnlyHostByteWritesChangeTheInputBuffer :
    (∃ t, step (hostNext ⟨.write, 1, 0x5FF, 1⟩ { State.reset with mem := [(0x5FF, 0)] }) = .next t ∧
      t.readByte 0x5FF ≠ ({ State.reset with mem := [(0x5FF, 0)] } : State).readByte 0x5FF) ∧
    ∀ rest, (hostNext ⟨.write, 1, 0x5FF, 1⟩ State.reset).inputs ≠ .powerOn :: rest :=
  ⟨⟨_, rfl, by decide⟩, fun _ h => nomatch h⟩
/-- SequencerMovesOnlyByStartCompletionAndReset: each of its changes happens, DONE falling by each cause. -/
theorem witness_SequencerMovesOnlyByStartCompletionAndReset :
    (∃ t, step (hostNext ⟨.write, 4, 0x000, 1⟩ State.reset) = .next t ∧ t.busy = true) ∧
    (∃ t, step (pending 1 0 []) = .next t ∧ t.busy = false ∧ t.done = true) ∧
    (∃ t, step (hostNext ⟨.write, 4, 0x008, 0x80000000⟩ (pending 1 0 [])) = .next t ∧ t.busy = false) ∧
    (∃ t, step (hostNext ⟨.write, 4, 0x004, 2⟩ { State.reset with done := true }) = .next t ∧ t.done = false) ∧
    (∃ t, step (hostNext ⟨.write, 4, 0x000, 0⟩ { State.reset with done := true }) = .next t ∧ t.done = false) ∧
    (∃ t, step (hostNext ⟨.write, 4, 0x008, 0x80000000⟩ { State.reset with done := true }) = .next t ∧
      t.done = false) ∧
    ∀ rest, (pending 1 0 []).inputs ≠ .powerOn :: rest :=
  ⟨⟨_, rfl, rfl⟩, ⟨_, rfl, rfl, rfl⟩, ⟨_, rfl, rfl⟩, ⟨_, rfl, rfl⟩, ⟨_, rfl, rfl⟩, ⟨_, rfl, rfl⟩,
    fun _ h => nomatch h⟩
/-- IrqChangesOnlyByItsCauses: IRQ falls, rises by a completion, and rises by enabling it. -/
theorem witness_IrqChangesOnlyByItsCauses :
    (∃ t, step (hostNext ⟨.write, 4, 0x004, 2⟩ { State.reset with irqEn := true, done := true }) = .next t ∧
      ({ State.reset with irqEn := true, done := true } : State).irq = true ∧ t.irq = false) ∧
    (∃ t, step { pending 1 0 [] with irqEn := true } = .next t ∧
      ({ pending 1 0 [] with irqEn := true } : State).irq = false ∧ t.irq = true) ∧
    (∃ t, step (hostNext ⟨.write, 4, 0x008, 1⟩ { State.reset with done := true }) = .next t ∧
      ({ State.reset with done := true } : State).irq = false ∧ t.irq = true) :=
  ⟨⟨_, rfl, rfl, rfl⟩, ⟨_, rfl, rfl, rfl⟩, ⟨_, rfl, rfl, rfl⟩⟩
/-- StepKeepsTheInvariants: the invariants hold of a state with a pending command, which takes a step. -/
theorem witness_StepKeepsTheInvariants :
    Inv { State.reset with busy := true, cmdOp := 1 } ∧
    ∃ t, step { State.reset with busy := true, cmdOp := 1 } = .next t :=
  ⟨⟨fun _ => ⟨rfl, rfl⟩, by decide, by decide, by decide, by decide, .inl rfl, fun h => absurd rfl h,
    reset_memory_wf⟩, ⟨_, rfl⟩⟩
/-- ZeroLengthDecodeReportsNothing: IBUF holds a frame that decodes, and LEN is 0. -/
theorem witness_ZeroLengthDecodeReportsNothing : (pending 3 0 volumeFrame).busy = true ∧
    (pending 3 0 volumeFrame).cmdOp = 3 ∧ (pending 3 0 volumeFrame).ibufLen = 0 := ⟨rfl, rfl, rfl⟩
theorem witness_PowerOnClearsEveryRegister :
    ∃ t, step { pending 1 7 volumeFrame with inputs := [.powerOn] } = .next t := ⟨_, rfl⟩

end Sys2Proof.Machine.Tests
end

/-! SUPPORT. Facts about the words, the frame and the decode results that the invariants speak of. -/
namespace Sys2Proof.Machine

/-! ### The words of CMD, STATUS and CTRL -/

/-- Bit `i` of a word is set exactly when its value has that binary digit. -/
theorem getLsbD_eq_true_iff (w : Word) (i : Nat) : w.getLsbD i = true ↔ w.toNat / 2 ^ i % 2 = 1 := by
  rw [← BitVec.testBit_toNat, Nat.testBit_eq_decide_div_mod_eq, decide_eq_true_eq]

/-- A word with bit 31 set is at least 2^31. -/
theorem le_toNat_of_getLsbD_31 {w : Word} (h : w.getLsbD 31 = true) : 2 ^ 31 ≤ w.toNat := by
  have := (getLsbD_eq_true_iff w 31).mp h
  omega

/-- A STATUS write decodes to the STATUS row (30_encoding.md R57). -/
theorem decode_statusWrite (w : Word) :
    decode (.tx ⟨.write, 4, 0x004, w⟩) = .ok (.clearStatus (w.getLsbD 1) (w.getLsbD 8)) := by
  simp [decode, decodeTransaction, decodeRegisterWrite, decodeStatusWord]

/-- A CTRL write decodes to a CTRL row, by its word (30_encoding.md R57). -/
theorem decode_ctrlWrite (w : Word) :
    decode (.tx ⟨.write, 4, 0x008, w⟩) = .ok (decodeCtrlWord w) := by
  simp [decode, decodeTransaction, decodeRegisterWrite]

/-- A CTRL write with bit 31 set decodes to the row SRST (30_encoding.md R57). -/
theorem decode_ctrlWrite_srst {w : Word} (h : w.getLsbD 31 = true) :
    decode (.tx ⟨.write, 4, 0x008, w⟩) = .ok .srst := by
  rw [decode_ctrlWrite, decodeCtrlWord, if_pos h]

/-- A CTRL write with bit 31 clear decodes to the row SET_CTRL (30_encoding.md R57). -/
theorem decode_ctrlWrite_setCtrl {w : Word} (h : w.getLsbD 31 = false) :
    decode (.tx ⟨.write, 4, 0x008, w⟩) = .ok (.setCtrl (w.getLsbD 0)) := by
  rw [decode_ctrlWrite, decodeCtrlWord, if_neg (ne_true_of_eq_false h)]

/-! ### The frame in OBUF -/

/-- What 10_state.md R37, point 7, asks of the bytes of a frame holds of every frame of `Encode`. -/
theorem encodeFrame_header_checksum {cat fn : Byte} {p f : List Byte}
    (h : encodeFrame cat fn p = some f) :
    byteAt f 0 = 0x55 ∧ byteAt f 1 = 0xAA ∧ (byteAt f 2).toNat = p.length ∧
      byteAt f (p.length + 5) = checksum (f.take (p.length + 5)) := by
  obtain ⟨hp, rfl⟩ := encodeFrame_eq_some h
  have hlen : (frameHeader cat fn p.length ++ p).length = p.length + 5 := by simp [Nat.add_comm]
  refine ⟨rfl, rfl, ?_, ?_⟩
  · show (BitVec.ofNat 8 p.length).toNat = p.length
    rw [BitVec.toNat_ofNat]
    omega
  · rw [byteAt_append_right _ _ (Nat.le_of_eq hlen), ← hlen, List.take_left, Nat.sub_self]
    rfl

/-- OBUF[i] after a frame is written there. -/
theorem readByte_writeObuf_obufOffset (s : State) {f : List Byte} {i : Nat} (h : i < f.length) :
    (s.writeObuf f).readByte (obufOffset i) = byteAt f i := by
  rw [readByte_writeObuf, if_pos (by simp only [obufOffset]; omega)]
  simp [obufOffset]

/-- The first bytes of OBUF after a frame is written there are the first bytes of the frame. -/
theorem obuf_writeObuf (s : State) {f : List Byte} {n : Nat} (h : n ≤ f.length) :
    (s.writeObuf f).obuf n = f.take n := by
  refine List.ext_getElem (by simpa using h) fun i hi _ => ?_
  have hn : i < n := by simpa using hi
  have hf : i < f.length := Nat.lt_of_lt_of_le hn h
  simp [State.obuf, readByte_writeObuf_obufOffset s hf, byteAt, List.getD, hf]

/-- The OBUF bytes alone, with OBUF_LEN, decide whether OBUF holds the frame it claims. -/
theorem obufHoldsFrame_congr {s t : State} (hl : t.obufLen = s.obufLen)
    (hr : ∀ a, 0x800 ≤ a → t.readByte a = s.readByte a) (h : obufHoldsFrame s) : obufHoldsFrame t := by
  have hr' : ∀ i, t.readByte (obufOffset i) = s.readByte (obufOffset i) :=
    fun i => hr _ (Nat.le_add_right _ i)
  have ho : ∀ n, t.obuf n = s.obuf n := fun n => by simp only [State.obuf, hr']
  simpa only [obufHoldsFrame, hl, hr', ho] using h

/-- A frame written to OBUF with its length in OBUF_LEN is the frame that OBUF_LEN claims. -/
theorem obufHoldsFrame_of_encodeFrame {s t : State} {cat fn : Byte} {p f : List Byte}
    (hf : encodeFrame cat fn p = some f) (hl : t.obufLen.toNat = p.length + 6)
    (hr : ∀ a, t.readByte a = (s.writeObuf f).readByte a) : obufHoldsFrame t := by
  intro _
  obtain ⟨h0, h1, h2, hc⟩ := encodeFrame_header_checksum hf
  have hlen := encodeFrame_length hf
  have hbyte : ∀ i < f.length, t.readByte (obufOffset i) = byteAt f i :=
    fun i hi => (hr _).trans (readByte_writeObuf_obufOffset s hi)
  have hobuf : t.obuf (p.length + 5) = f.take (p.length + 5) :=
    (by simp only [State.obuf, hr] : _ = (s.writeObuf f).obuf _).trans
      (obuf_writeObuf s (by omega))
  have hpred : t.obufLen.toNat - 1 = p.length + 5 := by omega
  rw [hpred, hobuf, hbyte 0 (by omega), hbyte 1 (by omega), hbyte 2 (by omega),
    hbyte (p.length + 5) (by omega), hl]
  exact ⟨h0, h1, h2, hc⟩

/-! ### The results of DECODE -/

/-- A kind whose field count is 0 is NONE, and only that one (10_state.md R31). -/
theorem eq_zero_iff_of_fieldCount : ∀ k c : BitVec 4, fieldCount k = some c → (k = 0 ↔ c = 0) := by
  decide

/-- A kind's field count is the number of slots of its extractor (10_state.md R31). -/
theorem fieldCount_kindCode (k : Kind) :
    fieldCount (kindCode k) = some (BitVec.ofNat 4 (kindOffsets k).length) := by
  cases k <;> rfl

/-- The fields an entry's arm answers are those of its extractor. -/
theorem entryResult_fields {e : Entry} {b vs : List Byte} {k : Kind}
    (h : entryResult e b = .fields k vs) : vs = extract k b := by
  rcases entryResult_cases e b with ⟨_, he⟩ | ⟨_, he⟩ <;> rw [he] at h <;> cases h
  rfl

/-- The fields `Decode` answers are those of an extractor. -/
theorem decodeFrame_fields {c : Codes} {b vs : List Byte} {k : Kind}
    (h : decodeFrame c (some b) = .fields k vs) : vs = extract k b := by
  simp only [decodeFrame] at h
  split at h
  · cases h
  · split at h
    · cases h
    · split at h
      · exact entryResult_fields h
      · cases h

/-- DEC_FIELDi after the results are written: value i, and 0 past the last value (10_state.md R32). -/
theorem setDecoded_decField_getElem (k : BitVec 4) (vs : List Byte) (s : State) (i : Fin 8) :
    (setDecoded k vs s).decField[i] = vs.getD i.val 0 := by
  fin_cases i <;> rfl

end Sys2Proof.Machine

/-! SUPPORT. Each named update keeps the invariants of 10_state.md R37, and so every step does. -/
namespace Sys2Proof.Machine

/-! ### The named updates -/

/-- The invariants hold on while the results of DECODE, OBUF_LEN and the bytes of OBUF stay, if BUSY, DONE
and ERR still agree and memory is canonical. -/
theorem inv_of_results_kept {s t : State} (hs : Inv s)
    (hbusy : t.busy = true → t.done = false ∧ t.err = 0) (herr : t.err.toNat ≤ 4)
    (hkind : t.decKind = s.decKind) (hcount : t.decCount = s.decCount) (hfield : t.decField = s.decField)
    (hlen : t.obufLen = s.obufLen) (hobuf : ∀ a, 0x800 ≤ a → t.readByte a = s.readByte a)
    (hmem : Memory.wf t.mem) : Inv t where
  busyClearsDoneAndErr := hbusy
  errCode := herr
  noneIffNoField := by rw [hkind, hcount]; exact hs.noneIffNoField
  countOfKind := by rw [hkind, hcount]; exact hs.countOfKind
  unusedFieldsZero := by rw [hcount, hfield]; exact hs.unusedFieldsZero
  obufLenRange := by rw [hlen]; exact hs.obufLenRange
  obufFrame := obufHoldsFrame_congr hlen hobuf hs.obufFrame
  memoryCanonical := hmem

/-- An update of fields that R37 does not speak of keeps the invariants: BUSY, ERR, the results of DECODE,
OBUF_LEN and memory stay, and DONE is not set. -/
theorem inv_of_flags_kept {s t : State} (hs : Inv s) (hbusy : t.busy = s.busy)
    (hdone : s.done = false → t.done = false) (herr : t.err = s.err) (hkind : t.decKind = s.decKind)
    (hcount : t.decCount = s.decCount) (hfield : t.decField = s.decField) (hlen : t.obufLen = s.obufLen)
    (hmem : t.mem = s.mem) (hepoch : t.epoch = s.epoch) : Inv t := by
  refine inv_of_results_kept hs (fun hb => ?_) ?_ hkind hcount hfield hlen
    (fun a _ => readByte_congr hmem hepoch a) (hmem ▸ hs.memoryCanonical)
  · obtain ⟨hd, he⟩ := hs.busyClearsDoneAndErr (hbusy ▸ hb)
    exact ⟨hdone hd, herr.trans he⟩
  · rw [herr]
    exact hs.errCode

theorem inv_consume {s : State} (hs : Inv s) : Inv (consume s) :=
  inv_of_flags_kept hs rfl id rfl rfl rfl rfl rfl rfl rfl

theorem inv_respond {s : State} (r : Response) (hs : Inv s) : Inv (respond r s) :=
  inv_of_flags_kept hs rfl id rfl rfl rfl rfl rfl rfl rfl

theorem inv_markDropped {s : State} (hs : Inv s) : Inv (markDropped s) :=
  inv_of_flags_kept hs rfl id rfl rfl rfl rfl rfl rfl rfl

theorem inv_setIrqEn {s : State} (b : Bool) (hs : Inv s) : Inv (setIrqEn b s) :=
  inv_of_flags_kept hs rfl id rfl rfl rfl rfl rfl rfl rfl

theorem inv_setIbufLen {s : State} (n : BitVec 16) (hs : Inv s) : Inv (setIbufLen n s) :=
  inv_of_flags_kept hs rfl id rfl rfl rfl rfl rfl rfl rfl

theorem inv_setEncCat {s : State} (v : Byte) (hs : Inv s) : Inv (setEncCat v s) :=
  inv_of_flags_kept hs rfl id rfl rfl rfl rfl rfl rfl rfl

theorem inv_setEncFn {s : State} (v : Byte) (hs : Inv s) : Inv (setEncFn v s) :=
  inv_of_flags_kept hs rfl id rfl rfl rfl rfl rfl rfl rfl

theorem inv_setCksumResult {s : State} (v : Byte) (hs : Inv s) : Inv (setCksumResult v s) :=
  inv_of_flags_kept hs rfl id rfl rfl rfl rfl rfl rfl rfl

/-- A STATUS write only clears DONE. -/
theorem inv_clearStatusBits {s : State} (d b : Bool) (hs : Inv s) : Inv (clearStatusBits d b s) :=
  inv_of_flags_kept hs rfl (fun h => by simp [h]) rfl rfl rfl rfl rfl rfl rfl

/-- A start clears the DONE and ERR that BUSY excludes. -/
theorem inv_cmdStart {s : State} (op : BitVec 3) (hs : Inv s) : Inv (cmdStart op s) :=
  inv_of_results_kept hs (fun _ => ⟨rfl, rfl⟩) (by simp) rfl rfl rfl rfl (fun _ _ => rfl)
    hs.memoryCanonical

/-- Completion ends BUSY, so DONE is free, and it may record any error code: all of them are at most 4. -/
theorem inv_finish_setErr {s : State} (e : ErrCode) (hs : Inv s) : Inv (finish (setErr e s)) := by
  have herr : (errBits e).toNat ≤ 4 := by cases e <;> decide
  exact inv_of_results_kept hs (fun h => nomatch h) herr rfl rfl rfl rfl (fun _ _ => rfl)
    hs.memoryCanonical

/-- A byte of IBUF is no byte of OBUF. -/
theorem inv_writeByte_ibuf {s : State} {a : Nat} (v : Byte) (ha : 0x400 ≤ a ∧ a ≤ 0x5FF) (hs : Inv s) :
    Inv (s.writeByte a v) := by
  have hbuf : bufferOffset a = true := by simp [bufferOffset]; omega
  exact inv_of_results_kept hs hs.busyClearsDoneAndErr hs.errCode rfl rfl rfl rfl
    (fun b _ => readByte_writeByte_other s v (by omega)) (Memory.write_wf v hs.memoryCanonical hbuf)

/-- A state whose registers are all 0 has the invariants, whatever its memory. -/
theorem inv_of_registers_zero {s : State} (hbusy : s.busy = false) (herr : s.err = 0)
    (hkind : s.decKind = 0) (hcount : s.decCount = 0) (hfield : s.decField = #v[0, 0, 0, 0, 0, 0, 0, 0])
    (hlen : s.obufLen = 0) (hmem : Memory.wf s.mem) : Inv s where
  busyClearsDoneAndErr h := by simp [hbusy] at h
  errCode := by simp [herr]
  noneIffNoField := by simp [hkind, hcount]
  countOfKind := by rw [hkind, hcount]; rfl
  unusedFieldsZero i _ := by rw [hfield]; fin_cases i <;> rfl
  obufLenRange := .inl hlen
  obufFrame h := absurd hlen h
  memoryCanonical := hmem

theorem inv_softReset {s : State} (hs : Inv s) : Inv (softReset s) :=
  inv_of_registers_zero rfl rfl rfl rfl rfl rfl hs.memoryCanonical

theorem inv_powerOnReset (s : State) : Inv (powerOnReset s) :=
  inv_of_registers_zero rfl rfl rfl rfl rfl rfl reset_memory_wf

/-! ### The results of the commands -/

/-- OBUF_LEN = 0 claims no frame. -/
theorem inv_setObufLen_zero {s : State} (hs : Inv s) : Inv (setObufLen 0 s) :=
  { hs with obufLenRange := .inl rfl, obufFrame := fun h => absurd rfl h }

/-- A frame of `Encode` in OBUF, with its length in OBUF_LEN. -/
theorem inv_setObufLen_writeObuf {s : State} {cat fn : Byte} {p f : List Byte}
    (hf : encodeFrame cat fn p = some f) (hs : Inv s) :
    Inv (setObufLen (BitVec.ofNat 16 (p.length + 6)) (s.writeObuf f)) := by
  have hp := (encodeFrame_eq_some hf).1
  have hlen := encodeFrame_length hf
  have hn : (BitVec.ofNat 16 (p.length + 6)).toNat = p.length + 6 := by
    rw [BitVec.toNat_ofNat]; omega
  have hmem : Memory.wf (s.writeObuf f).mem :=
    Memory.writeBytes_wf hs.memoryCanonical fun i hi => by simp [bufferOffset, obufOffset]; omega
  exact
    { hs with
      obufLenRange := .inr (by rw [setObufLen_obufLen, hn]; omega)
      obufFrame := obufHoldsFrame_of_encodeFrame (s := s) hf hn fun _ => rfl
      memoryCanonical := hmem }

/-- Values as many as their kind has fields. -/
theorem inv_setDecoded {s : State} {k : BitVec 4} {vs : List Byte} (hlen : vs.length ≤ 8)
    (hcount : fieldCount k = some (BitVec.ofNat 4 vs.length)) (hs : Inv s) : Inv (setDecoded k vs s) :=
  { hs with
    noneIffNoField := eq_zero_iff_of_fieldCount _ _ hcount
    countOfKind := hcount
    unusedFieldsZero := fun i hi => by
      have hn : (BitVec.ofNat 4 vs.length).toNat = vs.length := by rw [BitVec.toNat_ofNat]; omega
      rw [setDecoded_decField_getElem]
      exact List.getD_eq_default _ _ (hn ▸ hi) }

/-! ### The bodies -/

theorem inv_finish_cksumBody {s : State} (hs : Inv s) : Inv (finish (cksumBody s)) := by
  rcases cksumBody_cases s with ⟨_, h⟩ | ⟨_, h⟩ <;>
    exact h ▸ inv_finish_setErr _ (inv_setCksumResult _ hs)

theorem inv_finish_encodeBody {s : State} (hs : Inv s) : Inv (finish (encodeBody s)) := by
  rcases encodeBody_cases s with ⟨_, h⟩ | ⟨_, _, h⟩ | ⟨_, f, hf, _, h⟩ <;> rw [h]
  · exact inv_finish_setErr _ (inv_setCksumResult _ (inv_setObufLen_zero hs))
  · exact inv_finish_setErr _ (inv_setCksumResult _ (inv_setObufLen_zero hs))
  · have hframe := inv_setObufLen_writeObuf hf hs
    rw [inputBytes_length] at hframe
    exact inv_finish_setErr _ (inv_setCksumResult _ hframe)

/-- A parse whose fields are always those of an extractor. -/
theorem inv_finish_decodeBody {s : State} {parse : List Byte → DecodeResult}
    (hparse : ∀ b k vs, parse b = .fields k vs → vs = extract k b) (hs : Inv s) :
    Inv (finish (decodeBody parse s)) := by
  have hnone : Inv (setDecoded 0 [] s) := inv_setDecoded (Nat.zero_le 8) rfl hs
  rcases decodeBody_cases parse s with ⟨_, h⟩ | ⟨_, _, h⟩ | ⟨_, _, h⟩ | ⟨_, k, vs, hp, h⟩ <;> rw [h]
  · exact inv_finish_setErr _ hnone
  · exact inv_finish_setErr _ hnone
  · exact inv_finish_setErr _ hnone
  · have hvs : vs.length = (kindOffsets k).length := by rw [hparse _ k vs hp, extract_length]
    have hfields : Inv (setDecoded (kindCode k) vs s) :=
      inv_setDecoded (hvs ▸ (kindOffsets_length k).2) (hvs ▸ fieldCount_kindCode k) hs
    exact inv_finish_setErr _ hfields

theorem inv_finish_reservedBody {s : State} (hs : Inv s) : Inv (finish (reservedBody s)) :=
  inv_finish_setErr .badCommand hs

/-! ### The steps -/

/-- Every host transaction keeps the invariants. -/
theorem HostEffect.keeps_inv {tx : Transaction} {s t : State} (h : HostEffect tx s t) (hs : Inv s) :
    Inv t := by
  cases h with
  | read r _ ht => exact ht ▸ inv_respond r hs
  | ignored _ ht => exact ht ▸ inv_respond _ hs
  | dropped _ _ ht => exact ht ▸ inv_respond _ (inv_markDropped hs)
  | start w _ _ ht => exact ht ▸ inv_respond _ (inv_cmdStart _ hs)
  | status w _ ht => exact ht ▸ inv_respond _ (inv_clearStatusBits _ _ hs)
  | reset w _ _ ht => exact ht ▸ inv_respond _ (inv_softReset hs)
  | ctrl w _ _ ht => exact ht ▸ inv_respond _ (inv_setIrqEn _ hs)
  | ibufLen n _ _ ht => exact ht ▸ inv_respond _ (inv_setIbufLen n hs)
  | encCat v _ _ ht => exact ht ▸ inv_respond _ (inv_setEncCat v hs)
  | encFn v _ _ ht => exact ht ▸ inv_respond _ (inv_setEncFn v hs)
  | ibuf _ _ _ ha ht => exact ht ▸ inv_respond _ (inv_writeByte_ibuf _ ha hs)

/-- Every engine step keeps the invariants. -/
theorem EngineEffect.keeps_inv {s t : State} (h : EngineEffect s t) (hs : Inv s) : Inv t := by
  cases h with
  | cksum _ ht => exact ht ▸ inv_finish_cksumBody hs
  | encode _ ht => exact ht ▸ inv_finish_encodeBody hs
  | decode _ ht => exact ht ▸ inv_finish_decodeBody (fun _ _ _ hp => decodeFrame_fields hp) hs
  | frame e _ _ _ ht => exact ht ▸ inv_finish_decodeBody (fun _ _ _ hp => entryResult_fields hp) hs
  | reserved _ ht => exact ht ▸ inv_finish_reservedBody hs

/-- Settles O52: a step is an idle one, a power-on, a host transaction or the engine's, and each keeps the
invariants. -/
theorem stepKeepsTheInvariants : Obligations.StepKeepsTheInvariants := by
  intro s t hs h
  have hc := inv_consume hs
  rcases step_effect h with ⟨_, _, ht⟩ | ⟨_, ht⟩ | ⟨_, _, _, _, he⟩ | ⟨_, _, he⟩
  · exact ht ▸ hc
  · exact ht ▸ inv_powerOnReset _
  · exact he.keeps_inv hc
  · exact he.keeps_inv hc

/-- Settles O53: every register of the reset state is 0 and no byte is listed. -/
theorem resetHasTheInvariants : Obligations.ResetHasTheInvariants :=
  inv_of_registers_zero rfl rfl rfl rfl rfl rfl reset_memory_wf

end Sys2Proof.Machine

/-! SUPPORT. What a step may change: OBUF, IBUF, the sequencer and IRQ (10_state.md R15 to R36), and the
causes of each change; what a step from a pending command keeps (R35). -/
namespace Sys2Proof.Machine

/-! ### What a host transaction may change -/

/-- OBUF_LEN: only a soft reset changes it. -/
theorem HostEffect.obufLen_cases {tx : Transaction} {s t : State} (h : HostEffect tx s t) :
    t.obufLen = s.obufLen ∨ (decode (.tx tx) = .ok .srst ∧ t.obufLen = 0) := by
  cases h with
  | reset w htx hw ht => exact .inr ⟨htx ▸ decode_ctrlWrite_srst hw, ht ▸ rfl⟩
  | _ => rename_i ht; exact .inl (ht ▸ rfl)

/-- A buffer byte: only an accepted byte write of its offset, in IBUF, changes it. -/
theorem HostEffect.readByte_cases {tx : Transaction} {s t : State} (h : HostEffect tx s t) (a : Nat) :
    t.readByte a = s.readByte a ∨
    (s.busy = false ∧ tx.dir = .write ∧ tx.width = 1 ∧ tx.addr.toNat = a ∧ a ≤ 0x5FF ∧
      t.readByte a = BitVec.ofNat 8 tx.data.toNat) := by
  cases h with
  | ibuf hd hw hb ha ht =>
    subst ht
    by_cases h : a = tx.addr.toNat
    · subst h
      exact .inr ⟨hb, hd, hw, rfl, ha.2, readByte_writeByte_same s _ _⟩
    · exact .inl (readByte_writeByte_other s _ h)
  | _ => rename_i ht; exact .inl (ht ▸ rfl)

/-- BUSY and DONE: an accepted CMD write, a STATUS write and a soft reset change them, and nothing else. -/
theorem HostEffect.sequencer_cases {tx : Transaction} {s t : State} (h : HostEffect tx s t) :
    (t.busy = s.busy ∧ t.done = s.done) ∨
    (∃ w, tx = ⟨.write, 4, 0x000, w⟩ ∧ s.busy = false ∧ t.busy = true ∧ t.done = false ∧
      t.cmdOp.toNat = w.toNat % 8) ∨
    (∃ w, tx = ⟨.write, 4, 0x004, w⟩ ∧ t.busy = s.busy ∧ t.done = (s.done && !w.getLsbD 1)) ∨
    (∃ w, tx = ⟨.write, 4, 0x008, w⟩ ∧ w.getLsbD 31 = true ∧ t.busy = false ∧ t.done = false) := by
  cases h with
  | start w htx hb ht =>
    have hop : (w.extractLsb' 0 3).toNat = w.toNat % 8 := by simp
    exact .inr (.inl ⟨w, htx, hb, ht ▸ rfl, ht ▸ rfl, ht ▸ hop⟩)
  | status w htx ht => exact .inr (.inr (.inl ⟨w, htx, ht ▸ rfl, ht ▸ rfl⟩))
  | reset w htx hw ht => exact .inr (.inr (.inr ⟨w, htx, hw, ht ▸ rfl, ht ▸ rfl⟩))
  | _ => rename_i ht; exact .inl ⟨ht ▸ rfl, ht ▸ rfl⟩

/-- IRQ_EN: only a CTRL write changes it. -/
theorem HostEffect.irqEn_cases {tx : Transaction} {s t : State} (h : HostEffect tx s t) :
    t.irqEn = s.irqEn ∨
    (∃ w, tx = ⟨.write, 4, 0x008, w⟩ ∧ w.getLsbD 31 = true ∧ t.irqEn = false) ∨
    (decode (.tx tx) = .ok (.setCtrl t.irqEn) ∧ t.done = s.done) := by
  cases h with
  | reset w htx hw ht => exact .inr (.inl ⟨w, htx, hw, ht ▸ rfl⟩)
  | ctrl w htx hw ht => exact .inr (.inr ⟨htx ▸ ht ▸ decode_ctrlWrite_setCtrl hw, ht ▸ rfl⟩)
  | _ => rename_i ht; exact .inl (ht ▸ rfl)

/-- DONE: no host transaction sets it. -/
theorem HostEffect.done_of_done {tx : Transaction} {s t : State} (h : HostEffect tx s t)
    (ht : t.done = true) : s.done = true := by
  rcases h.sequencer_cases with ⟨_, hd⟩ | ⟨_, _, _, _, hd, _⟩ | ⟨_, _, _, hd⟩ | ⟨_, _, _, _, hd⟩
  · exact hd ▸ ht
  · exact absurd ht (by simp [hd])
  · rw [hd, Bool.and_eq_true] at ht
    exact ht.1
  · exact absurd ht (by simp [hd])

/-- IRQ falls by a host transaction only where it clears DONE or IRQ_EN, resets, or starts a command. -/
theorem HostEffect.irq_falls {tx : Transaction} {s t : State} (h : HostEffect tx s t)
    (hs : s.irq = true) (ht : t.irq = false) :
    (∃ b, decode (.tx tx) = .ok (.clearStatus true b)) ∨ decode (.tx tx) = .ok (.setCtrl false) ∨
      decode (.tx tx) = .ok .srst ∨ (s.busy = false ∧ t.busy = true) := by
  obtain ⟨hen, hdone⟩ : s.irqEn = true ∧ s.done = true := by simpa [State.irq] using hs
  rcases h.irqEn_cases with hkept | ⟨w, htx, hw, _⟩ | ⟨hd, hkept⟩
  · have hfall : t.done = false := by simpa [State.irq, hkept, hen] using ht
    rcases h.sequencer_cases with
      ⟨_, hd⟩ | ⟨_, _, hb, hb', _⟩ | ⟨w, htx, _, hd⟩ | ⟨w, htx, hw, _, _⟩
    · simp [hd, hdone] at hfall
    · exact .inr (.inr (.inr ⟨hb, hb'⟩))
    · have hw : w.getLsbD 1 = true := by simpa [hd, hdone] using hfall
      exact .inl ⟨_, by rw [htx, decode_statusWrite, hw]⟩
    · exact .inr (.inr (.inl (htx ▸ decode_ctrlWrite_srst hw)))
  · exact .inr (.inr (.inl (htx ▸ decode_ctrlWrite_srst hw)))
  · have hoff : t.irqEn = false := by simpa [State.irq, hkept, hdone] using ht
    exact .inr (.inl (hoff ▸ hd))

/-- IRQ rises by a host transaction only where it enables IRQ while DONE is 1. -/
theorem HostEffect.irq_rises {tx : Transaction} {s t : State} (h : HostEffect tx s t)
    (hs : s.irq = false) (ht : t.irq = true) :
    s.done = true ∧ decode (.tx tx) = .ok (.setCtrl true) := by
  obtain ⟨hen, hdone⟩ : t.irqEn = true ∧ t.done = true := by simpa [State.irq] using ht
  have hdone' := h.done_of_done hdone
  rcases h.irqEn_cases with hkept | ⟨_, _, _, hoff⟩ | ⟨hd, _⟩
  · simp [State.irq, hdone', hkept ▸ hen] at hs
  · simp [hoff] at hen
  · exact ⟨hdone', hen ▸ hd⟩

/-- From BUSY to BUSY a host transaction keeps what the engine reads and every result (10_state.md R35). -/
theorem HostEffect.keeps_pending {tx : Transaction} {s t : State} (h : HostEffect tx s t)
    (hs : s.busy = true) (ht : t.busy = true) :
    t.cmdOp = s.cmdOp ∧ t.ibufLen = s.ibufLen ∧ t.encCat = s.encCat ∧ t.encFn = s.encFn ∧
    t.obufLen = s.obufLen ∧ t.cksumResult = s.cksumResult ∧ t.decKind = s.decKind ∧
    t.decCount = s.decCount ∧ t.decField = s.decField ∧ t.err = s.err ∧
    ∀ a, t.readByte a = s.readByte a := by
  have hidle : s.busy ≠ false := by simp [hs]
  cases h with
  | start w _ hb _ => exact absurd hb hidle
  | ibufLen n _ hb _ => exact absurd hb hidle
  | encCat v _ hb _ => exact absurd hb hidle
  | encFn v _ hb _ => exact absurd hb hidle
  | ibuf _ _ hb _ _ => exact absurd hb hidle
  | reset w _ _ heq => rw [heq] at ht; cases ht
  | _ => rename_i heq; subst heq; exact ⟨rfl, rfl, rfl, rfl, rfl, rfl, rfl, rfl, rfl, rfl, fun _ => rfl⟩

/-! ### What an engine step may change -/

/-- The body of CKSUM keeps IRQ_EN and the output buffer. -/
theorem cksumBody_keeps (s : State) : (cksumBody s).irqEn = s.irqEn ∧
    (cksumBody s).obufLen = s.obufLen ∧ ∀ a, (cksumBody s).readByte a = s.readByte a := by
  rcases cksumBody_cases s with ⟨_, h⟩ | ⟨_, h⟩ <;> exact h ▸ ⟨rfl, rfl, fun _ => rfl⟩

/-- The body of DECODE keeps IRQ_EN and the output buffer. -/
theorem decodeBody_keeps (parse : List Byte → DecodeResult) (s : State) :
    (decodeBody parse s).irqEn = s.irqEn ∧ (decodeBody parse s).obufLen = s.obufLen ∧
      ∀ a, (decodeBody parse s).readByte a = s.readByte a := by
  rcases decodeBody_cases parse s with ⟨_, h⟩ | ⟨_, _, h⟩ | ⟨_, _, h⟩ | ⟨_, _, _, _, h⟩ <;>
    exact h ▸ ⟨rfl, rfl, fun _ => rfl⟩

/-- The body of ENCODE keeps IRQ_EN. -/
theorem encodeBody_irqEn (s : State) : (encodeBody s).irqEn = s.irqEn := by
  rcases encodeBody_cases s with ⟨_, h⟩ | ⟨_, _, h⟩ | ⟨_, _, _, _, h⟩ <;> exact h ▸ rfl

/-- The body of ENCODE changes a byte only where it succeeds, inside the frame it writes. -/
theorem encodeBody_readByte_cases (s : State) (a : Nat) :
    (encodeBody s).readByte a = s.readByte a ∨
    ((encodeBody s).err = 0 ∧ (encodeBody s).obufLen.toNat = s.ibufLen.toNat + 6 ∧ 0x800 ≤ a ∧
      a < 0x800 + (encodeBody s).obufLen.toNat) := by
  rcases encodeBody_cases s with ⟨_, h⟩ | ⟨_, _, h⟩ | ⟨hle, f, _, hlen, h⟩
  · exact .inl (h ▸ rfl)
  · exact .inl (h ▸ rfl)
  · have hn : (encodeBody s).obufLen.toNat = s.ibufLen.toNat + 6 := by
      simp only [h, setErr_obufLen, setCksumResult_obufLen, setObufLen_obufLen, BitVec.toNat_ofNat]
      omega
    have hread : (encodeBody s).readByte a = (s.writeObuf f).readByte a := h ▸ rfl
    rw [readByte_writeObuf, hlen] at hread
    split at hread
    · next hin => exact .inr ⟨h ▸ rfl, hn, hin.1, hn ▸ hin.2⟩
    · exact .inl hread

/-- Every engine step ends with BUSY = 0 and DONE = 1 and keeps IRQ_EN (44_command_interface.md R116). -/
theorem EngineEffect.finishes {s t : State} (h : EngineEffect s t) :
    t.busy = false ∧ t.done = true ∧ t.irqEn = s.irqEn := by
  cases h with
  | cksum _ ht => exact ht ▸ ⟨rfl, rfl, (cksumBody_keeps s).1⟩
  | encode _ ht => exact ht ▸ ⟨rfl, rfl, encodeBody_irqEn s⟩
  | decode _ ht => exact ht ▸ ⟨rfl, rfl, (decodeBody_keeps _ s).1⟩
  | frame e _ _ _ ht => exact ht ▸ ⟨rfl, rfl, (decodeBody_keeps _ s).1⟩
  | reserved _ ht => exact ht ▸ ⟨rfl, rfl, rfl⟩

/-- An engine step that changes OBUF_LEN or a byte is the completion of ENCODE. -/
theorem EngineEffect.encode_or_keeps_buffers {s t : State} (h : EngineEffect s t) :
    (s.cmdOp = 2 ∧ t = finish (encodeBody s)) ∨
    (t.obufLen = s.obufLen ∧ ∀ a, t.readByte a = s.readByte a) := by
  cases h with
  | encode ho ht => exact .inl ⟨ho, ht⟩
  | cksum _ ht => exact .inr (ht ▸ (cksumBody_keeps s).2)
  | decode _ ht => exact .inr (ht ▸ (decodeBody_keeps _ s).2)
  | frame e _ _ _ ht => exact .inr (ht ▸ (decodeBody_keeps _ s).2)
  | reserved _ ht => exact .inr (ht ▸ ⟨rfl, fun _ => rfl⟩)

/-- A buffer byte: only a successful ENCODE changes it, inside the frame it writes to OBUF. -/
theorem EngineEffect.readByte_cases {s t : State} (h : EngineEffect s t) (a : Nat) :
    t.readByte a = s.readByte a ∨
    (s.cmdOp = 2 ∧ t.err = 0 ∧ t.obufLen.toNat = s.ibufLen.toNat + 6 ∧ 0x800 ≤ a ∧
      a < 0x800 + t.obufLen.toNat) := by
  rcases h.encode_or_keeps_buffers with ⟨ho, rfl⟩ | ⟨_, hr⟩
  · exact (encodeBody_readByte_cases s a).imp id fun h => ⟨ho, h⟩
  · exact .inl (hr a)

/-! ### The statements -/

/-- A step other than a power-on is an idle one, a host transaction or the engine's. -/
theorem step_effect_of_not_powerOn {s t : State} (h : step s = .next t)
    (hp : ∀ rest, s.inputs ≠ .powerOn :: rest) :
    t = consume s ∨
    (∃ tx rest, s.inputs = .host tx :: rest ∧ (∃ i, decode (.tx tx) = .ok i) ∧
      HostEffect tx (consume s) t) ∨
    (s.busy = true ∧ (∀ tx rest, s.inputs ≠ .host tx :: rest) ∧ EngineEffect (consume s) t) := by
  rcases step_effect h with ⟨_, _, ht⟩ | ⟨⟨rest, hi⟩, _⟩ | he | he
  · exact .inl ht
  · exact absurd hi (hp rest)
  · exact .inr (.inl he)
  · exact .inr (.inr he)

/-- Settles O21: only a host transaction leads from BUSY to BUSY. -/
theorem pendingCommandKeepsItsInputsAndResults :
    Obligations.PendingCommandKeepsItsInputsAndResults := by
  intro s t hs h ht
  rcases step_effect h with ⟨hb, _, _⟩ | ⟨_, hpow⟩ | ⟨_, _, _, _, he⟩ | ⟨_, _, he⟩
  · simp [hs] at hb
  · simp [hpow] at ht
  · exact he.keeps_pending hs ht
  · simp [he.finishes.1] at ht

/-- Settles O48: the host reaches OBUF_LEN by a soft reset alone and writes bytes of IBUF only; the engine
writes the output buffer in ENCODE only. -/
theorem onlyEncodeChangesTheOutputBuffer : Obligations.OnlyEncodeChangesTheOutputBuffer := by
  intro s t h hp
  rcases step_effect_of_not_powerOn h hp with rfl | ⟨tx, rest, hi, _, he⟩ | ⟨hb, _, he⟩
  · exact ⟨fun hne => absurd rfl hne, fun _ _ _ hne => absurd rfl hne⟩
  · refine ⟨fun hne => ?_, fun a ha _ hne => ?_⟩
    · rcases he.obufLen_cases with hkept | ⟨hd, hz⟩
      · exact absurd hkept hne
      · exact .inr ⟨tx, rest, hi, hd, hz⟩
    · rcases he.readByte_cases a with hkept | ⟨_, _, _, _, hibuf, _⟩
      · exact absurd hkept hne
      · omega
  · obtain ⟨hb', hd', _⟩ := he.finishes
    refine ⟨fun hne => ?_, fun a _ _ hne => ?_⟩
    · rcases he.encode_or_keeps_buffers with ⟨ho, _⟩ | ⟨hkept, _⟩
      · exact .inl ⟨hb, ho, hb', hd'⟩
      · exact absurd hkept hne
    · rcases he.readByte_cases a with hkept | ⟨ho, herr, hlen, _, hlt⟩
      · exact absurd hkept hne
      · exact ⟨hb, ho, hb', hd', herr, hlen, hlt⟩

/-- Settles O49: the engine writes at 0x800 and above, the host in IBUF. -/
theorem onlyHostByteWritesChangeTheInputBuffer :
    Obligations.OnlyHostByteWritesChangeTheInputBuffer := by
  intro s t h hp a _ ha hne
  rcases step_effect_of_not_powerOn h hp with rfl | ⟨tx, rest, hi, _, he⟩ | ⟨_, _, he⟩
  · exact absurd rfl hne
  · rcases he.readByte_cases a with hkept | ⟨hb, hd, hw, haddr, _, hv⟩
    · exact absurd hkept hne
    · exact ⟨hb, tx, rest, hi, hd, hw, haddr, hv⟩
  · rcases he.readByte_cases a with hkept | ⟨_, _, _, hobuf, _⟩
    · exact absurd hkept hne
    · omega

/-- Settles O50: each of the four moves of BUSY and DONE answers the clauses whose change it makes, and the
values it leaves there rule the other clauses out. -/
theorem sequencerMovesOnlyByStartCompletionAndReset :
    Obligations.SequencerMovesOnlyByStartCompletionAndReset := by
  intro s t h hp
  rcases step_effect_of_not_powerOn h hp with rfl | ⟨tx, rest, hi, _, he⟩ | ⟨hbusy, hi, he⟩
  · simp +contextual
  · rcases he.sequencer_cases with
      ⟨hb, hd⟩ | ⟨w, rfl, hidle, hb, hd, hop⟩ | ⟨w, rfl, hb, hd⟩ | ⟨w, rfl, hw, hb, hd⟩
    · simp +contextual [hb, hd]
    · refine ⟨fun _ _ => ⟨w, rest, hi, hop⟩, ?_, ?_,
        fun _ _ => ⟨w, rest, .inr (.inl ⟨hi, hidle, hb⟩)⟩⟩
      · simp [hb]
      · simp [hd]
    · refine ⟨?_, ?_, ?_, fun hs ht => ⟨w, rest, .inl ⟨hi, ?_⟩⟩⟩
      · simp +contextual [hb]
      · simp +contextual [hb]
      · simp +contextual [hd]
      · rw [hd, consume_done, hs, Bool.true_and, Bool.not_eq_false'] at ht
        exact (getLsbD_eq_true_iff w 1).mp ht
    · have hle := le_toNat_of_getLsbD_31 hw
      refine ⟨?_, fun _ _ => .inr ⟨w, rest, hi, hle⟩, ?_,
        fun _ _ => ⟨w, rest, .inr (.inr ⟨hi, hle⟩)⟩⟩
      · simp [hb]
      · simp [hd]
  · obtain ⟨hb, hd, _⟩ := he.finishes
    refine ⟨?_, fun _ _ => .inl ⟨hi, hd⟩, fun _ _ => ⟨hbusy, hb, hi⟩, ?_⟩
    · simp [hb]
    · simp [hd]

/-- Settles O51: a host transaction or the completion of a command; an idle step keeps IRQ. -/
theorem irqChangesOnlyByItsCauses : Obligations.IrqChangesOnlyByItsCauses := by
  intro s t h hp
  rcases step_effect_of_not_powerOn h hp with rfl | ⟨tx, rest, hi, ⟨i, hdec⟩, he⟩ | ⟨hbusy, _, he⟩
  · have hkept : (consume s).irq = s.irq := rfl
    simp +contextual [hkept]
  · refine ⟨fun hs ht => ?_, fun hs ht => ?_⟩
    · rcases he.irq_falls hs ht with ⟨b, hd⟩ | hd | hd | hstart
      · exact ⟨tx, rest, _, hi, hd, .inl ⟨b, rfl⟩⟩
      · exact ⟨tx, rest, _, hi, hd, .inr (.inl rfl)⟩
      · exact ⟨tx, rest, _, hi, hd, .inr (.inr (.inl rfl))⟩
      · exact ⟨tx, rest, i, hi, hdec, .inr (.inr (.inr hstart))⟩
    · obtain ⟨hd, hset⟩ := he.irq_rises hs ht
      exact .inr ⟨hd, tx, rest, hi, hset⟩
  · obtain ⟨hb, hd, hen⟩ := he.finishes
    have hirq : t.irq = s.irqEn := by simp [State.irq, hd, hen]
    refine ⟨fun hs ht => ?_, fun _ ht => .inl ⟨hirq ▸ ht, hbusy, hb, hd⟩⟩
    simp [State.irq, hirq ▸ ht] at hs

/-- The meaning of a STATUS word. -/
theorem exec_clearStatus (d b : Bool) (s : State) :
    exec (.clearStatus d b) s = .next (respond .ack (clearStatusBits d b s)) := rfl

/-- The meaning of a CTRL word with bit 31 clear. -/
theorem exec_setCtrl (b : Bool) (s : State) :
    exec (.setCtrl b) s = .next (respond .ack (setIrqEn b s)) := rfl

/-- Settles O45: a bit that is kept unless it is cleared, for each of the two. -/
theorem statusWriteClearsOnly : Obligations.StatusWriteClearsOnly := by
  intro s d b
  have hbit : ∀ x c : Bool, (x && !c) = if c then false else x := by decide
  simp only [exec_clearStatus, clearStatusBits, hbit]
  rfl

/-- Settles O46: SET_CTRL is one field update. -/
theorem ctrlWriteSetsIrqEn : Obligations.CtrlWriteSetsIrqEn :=
  fun s b => exec_setCtrl b s

end Sys2Proof.Machine

/-! SUPPORT. Which host transactions are legal, and that every other one ends in BusError (20_memory.md R40,
60_exceptions.md R121). -/
namespace Sys2Proof.Machine

/-! ### The two legal cases -/

/-- The offset of a legal 4-byte access: in the register window and aligned. -/
theorem legalWordOffset_iff {a : Offset} :
    legalWordOffset a = true ↔ a.toNat < 0x400 ∧ a.toNat % 4 = 0 := by
  simp [legalWordOffset]

/-- The offset of a legal 1-byte access: above the register window. -/
theorem legalByteOffset_iff {a : Offset} : legalByteOffset a = true ↔ 0x400 ≤ a.toNat :=
  decide_eq_true_iff

/-- The two cases of 20_memory.md R40. -/
theorem legalTransaction_iff {tx : Transaction} : legalTransaction tx = true ↔
    (tx.width = 4 ∧ tx.addr.toNat < 0x400 ∧ tx.addr.toNat % 4 = 0) ∨
      (tx.width = 1 ∧ 0x400 ≤ tx.addr.toNat) := by
  simp only [legalTransaction, Bool.or_eq_true, Bool.and_eq_true, beq_iff_eq, legalWordOffset_iff,
    legalByteOffset_iff]

/-! ### The decoder and the step on a host transaction -/

/-- A host transaction decodes to an instruction where it is legal; elsewhere the decoder's error ends in a
bus error at its offset. -/
theorem decode_tx_cases (tx : Transaction) :
    (legalTransaction tx = true ∧ ∃ i, decode (.tx tx) = .ok i) ∨
    (legalTransaction tx = false ∧
      ∃ e, decode (.tx tx) = .error e ∧ rejected e = .fault (.busError tx.addr)) := by
  simp only [← Bool.not_eq_true, legalTransaction_iff, decode, decodeTransaction]
  by_cases hwin : tx.addr.toNat < 0x400
  · rw [if_pos hwin]
    by_cases hw : tx.width = 4
    · rw [if_neg (not_not_intro hw)]
      by_cases ha : tx.addr.toNat % 4 = 0
      · rw [if_neg (not_not_intro ha)]
        refine .inl ⟨.inl ⟨hw, hwin, ha⟩, ?_⟩
        cases tx.dir <;> exact ⟨_, rfl⟩
      · rw [if_pos ha]
        exact .inr ⟨by omega, _, rfl, rfl⟩
    · rw [if_pos hw]
      exact .inr ⟨by omega, _, rfl, rfl⟩
  · rw [if_neg hwin]
    by_cases hw : tx.width = 1
    · rw [if_neg (not_not_intro hw)]
      refine .inl ⟨.inr ⟨hw, Nat.le_of_not_lt hwin⟩, ?_⟩
      cases tx.dir <;> exact ⟨_, rfl⟩
    · rw [if_pos hw]
      exact .inr ⟨by omega, _, rfl, rfl⟩

/-- A legal transaction decodes to an instruction. -/
theorem decode_of_legalTransaction {tx : Transaction} (h : legalTransaction tx = true) :
    ∃ i, decode (.tx tx) = .ok i := by
  rcases decode_tx_cases tx with ⟨_, hd⟩ | ⟨hn, _⟩
  · exact hd
  · exact absurd h (by simp [hn])

/-- A step whose event is a host transaction that the decoder rejects ends as the rejection says. -/
theorem step_of_host_error {s : State} {tx : Transaction} {rest : List Event} {e : DecodeError}
    (hi : s.inputs = .host tx :: rest) (hd : decode (.tx tx) = .error e) : step s = rejected e := by
  have hf : fetched s = .run (.tx tx) := by simp [fetched, hi]
  simp only [step, hf, hd]

/-- An illegal transaction ends the step in BusError at its offset, in every state. -/
theorem step_of_illegalTransaction {s : State} {tx : Transaction} {rest : List Event}
    (hi : s.inputs = .host tx :: rest) (h : ¬legalTransaction tx = true) :
    step s = .fault (.busError tx.addr) := by
  rcases decode_tx_cases tx with ⟨hl, _⟩ | ⟨_, e, hd, hr⟩
  · exact absurd hl h
  · exact (step_of_host_error hi hd).trans hr

/-! ### The four access forms on an operand outside their window -/

/-- sw at an offset that no 4-byte access may have. -/
theorem exec_sw_fault {a : Offset} (w : Word) (s : State) (h : ¬legalWordOffset a = true) :
    exec (.sw a w) s = .fault (.busError a) := if_neg h

/-- lw at an offset that no 4-byte access may have. -/
theorem exec_lw_fault {a : Offset} (s : State) (h : ¬legalWordOffset a = true) :
    exec (.lw a) s = .fault (.busError a) := if_neg h

/-- sb at an offset that no 1-byte access may have. -/
theorem exec_sb_fault {a : Offset} (v : Byte) (s : State) (h : ¬legalByteOffset a = true) :
    exec (.sb a v) s = .fault (.busError a) := if_neg h

/-- lb at an offset that no 1-byte access may have. -/
theorem exec_lb_fault {a : Offset} (s : State) (h : ¬legalByteOffset a = true) :
    exec (.lb a) s = .fault (.busError a) := if_neg h

/-! ### The statements -/

/-- Settles O8: the decoder answers exactly the legal transactions, and its errors on the others are all bus
errors. -/
theorem legalTransactionsAreExactlyTwoCases : Obligations.LegalTransactionsAreExactlyTwoCases := by
  intro tx
  rw [← legalTransaction_iff]
  exact ⟨decode_of_legalTransaction, fun hn _ _ hi => step_of_illegalTransaction hi hn⟩

/-- Settles O44: each form checks its own operand. -/
theorem operandsOutsideTheWindowFault : Obligations.OperandsOutsideTheWindowFault := by
  intro s a
  refine ⟨fun hn => ?_, fun hlt => ?_⟩
  · have hword : ¬legalWordOffset a = true := mt legalWordOffset_iff.mp hn
    exact ⟨fun w => exec_sw_fault w s hword, exec_lw_fault s hword⟩
  · have hbyte : ¬legalByteOffset a = true := mt legalByteOffset_iff.mp (Nat.not_le_of_lt hlt)
    exact ⟨fun v => exec_sb_fault v s hbyte, exec_lb_fault s hbyte⟩

end Sys2Proof.Machine

/-! SUPPORT. The decoder and the encoder, form by form, and that each undoes the other (30_encoding.md). -/
namespace Sys2Proof.Machine

/-! ### Dispatch keys -/

/-- An entry the key decoder answers has the key. -/
theorem decodeKey_some {c : Codes} {k : BitVec 16} {e : Entry} (h : decodeKey c k = some e) :
    k = e.key c := by
  unfold decodeKey at h
  split_ifs at h <;> cases h <;> assumption

/-- The key decoder tries every entry: where it answers none, no entry has the key. -/
theorem decodeKey_none {c : Codes} {k : BitVec 16} (h : decodeKey c k = none) (e : Entry) :
    k ≠ e.key c := by
  unfold decodeKey at h
  split_ifs at h
  cases e <;> assumption

/-- The pairs that well-formedness speaks of are those of the table, in its order (00_scope.md R7). -/
theorem pairs_eq_map (c : Codes) :
    c.pairs = dispatchTable.map fun e => (e.category c, e.function c) := rfl

/-- Under a well-formed configuration no two entries share a key. -/
theorem key_injective {c : Codes} (hc : c.WellFormed) : Function.Injective (Entry.key c) := by
  intro e e' h
  have hmem : ∀ e : Entry, e ∈ dispatchTable := by intro e; cases e <;> decide
  obtain ⟨hcat, hfn⟩ := keyOf_inj h
  rw [Codes.WellFormed, pairs_eq_map] at hc
  exact List.inj_on_of_nodup_map hc (hmem e) (hmem e') (Prod.ext hcat hfn)

/-- Under a well-formed configuration, a search that answers only entries with the key, and none only where
no entry has it, finds exactly the entry with the key, in whatever order it searches. -/
theorem search_eq_some_iff {c : Codes} (hc : c.WellFormed) {k : BitVec 16} {found : Option Entry}
    (hsome : ∀ e, found = some e → k = e.key c) (hnone : found = none → ∀ e : Entry, k ≠ e.key c)
    (e : Entry) :
    found = some e ↔ k = e.key c := by
  refine ⟨hsome e, fun hk => ?_⟩
  cases hf : found with
  | none => exact absurd hk (hnone hf e)
  | some e' => rw [key_injective hc ((hsome e' hf).symm.trans hk)]

/-- The key decoder finds an entry exactly by its key. -/
theorem decodeKey_eq_some_iff {c : Codes} (hc : c.WellFormed) {k : BitVec 16} {e : Entry} :
    decodeKey c k = some e ↔ k = e.key c :=
  search_eq_some_iff hc (fun _ => decodeKey_some) decodeKey_none e

/-- The dispatch in table order finds an entry exactly by its key. -/
theorem dispatch_eq_some_iff {c : Codes} (hc : c.WellFormed) {cat fn : Byte} {e : Entry} :
    dispatch c cat fn = some e ↔ keyOf cat fn = e.key c := by
  refine search_eq_some_iff hc (fun e' h => ?_) (fun h e' hk => ?_) e
  · obtain ⟨rfl, rfl⟩ := dispatch_some h
    rfl
  · exact dispatch_none h e' (keyOf_inj hk)

/-- The key of an entry decodes to the entry's row, under the codes the block was built with. -/
theorem decode_key_entry (e : Entry) : decode (.key (e.key Config.codes)) = .ok e.instr := by
  have hk : decodeKey Config.codes (e.key Config.codes) = some e :=
    (decodeKey_eq_some_iff Config.configuration.wellFormed).mpr rfl
  simp only [decode, hk]

/-! ### Operands -/

theorem hasOwnRows_eq_false_iff {a : Offset} :
    Offset.hasOwnRows a = false ↔ a ≠ 0x000 ∧ a ≠ 0x004 ∧ a ≠ 0x008 := by
  simp [Offset.hasOwnRows, and_assoc]

theorem wellFormed_lw_iff {a : Offset} :
    (Instr.lw a).wellFormed = true ↔ legalWordOffset a = true := by
  simp [Instr.wellFormed, Offset.inRegisterWindow, Offset.wordAligned, legalWordOffset_iff]

theorem wellFormed_sw_iff {a : Offset} {w : Word} : (Instr.sw a w).wellFormed = true ↔
    legalWordOffset a = true ∧ Offset.hasOwnRows a = false := by
  rw [← wellFormed_lw_iff]
  simp [Instr.wellFormed]

theorem wellFormed_lb_iff {a : Offset} :
    (Instr.lb a).wellFormed = true ↔ legalByteOffset a = true := by
  simp [Instr.wellFormed, Offset.inRegisterWindow, legalByteOffset_iff]

theorem wellFormed_sb_iff {a : Offset} {v : Byte} :
    (Instr.sb a v).wellFormed = true ↔ legalByteOffset a = true :=
  wellFormed_lb_iff

/-! ### The four legal forms of a transaction -/

theorem decode_wordWrite {a : Offset} (h : legalWordOffset a = true) (w : Word) :
    decode (.tx ⟨.write, 4, a, w⟩) = .ok (decodeRegisterWrite a w) := by
  obtain ⟨hwin, hal⟩ := legalWordOffset_iff.mp h
  simp [decode, decodeTransaction, hwin, hal]

theorem decode_wordRead {a : Offset} (h : legalWordOffset a = true) (w : Word) :
    decode (.tx ⟨.read, 4, a, w⟩) = .ok (.lw a) := by
  obtain ⟨hwin, hal⟩ := legalWordOffset_iff.mp h
  simp [decode, decodeTransaction, hwin, hal]

theorem decode_byteWrite {a : Offset} (h : legalByteOffset a = true) (w : Word) :
    decode (.tx ⟨.write, 1, a, w⟩) = .ok (.sb a (w.extractLsb' 0 8)) := by
  have hwin := Nat.not_lt_of_le (legalByteOffset_iff.mp h)
  simp [decode, decodeTransaction, hwin]

theorem decode_byteRead {a : Offset} (h : legalByteOffset a = true) (w : Word) :
    decode (.tx ⟨.read, 1, a, w⟩) = .ok (.lb a) := by
  have hwin := Nat.not_lt_of_le (legalByteOffset_iff.mp h)
  simp [decode, decodeTransaction, hwin]

/-- Everything the decoder can answer for a host transaction. -/
theorem decode_tx_ok_cases {t : Transaction} {i : Instr} (h : decode (.tx t) = .ok i) :
    (legalWordOffset t.addr = true ∧
      (t.dir = .read ∧ i = .lw t.addr ∨ t.dir = .write ∧ i = decodeRegisterWrite t.addr t.data)) ∨
    (legalByteOffset t.addr = true ∧
      (t.dir = .read ∧ i = .lb t.addr ∨
        t.dir = .write ∧ i = .sb t.addr (t.data.extractLsb' 0 8))) := by
  have hlegal : legalTransaction t = true := by
    rcases decode_tx_cases t with ⟨hl, _⟩ | ⟨_, e, he, _⟩
    · exact hl
    · cases he.symm.trans h
  obtain ⟨dir, width, a, w⟩ := t
  rcases legalTransaction_iff.mp hlegal with ⟨rfl, ha⟩ | ⟨rfl, ha⟩
  · have ha := legalWordOffset_iff.mpr ha
    refine .inl ⟨ha, ?_⟩
    cases dir with
    | read => exact .inl ⟨rfl, Except.ok.inj (h.symm.trans (decode_wordRead ha w))⟩
    | write => exact .inr ⟨rfl, Except.ok.inj (h.symm.trans (decode_wordWrite ha w))⟩
  · have ha := legalByteOffset_iff.mpr ha
    refine .inr ⟨ha, ?_⟩
    cases dir with
    | read => exact .inl ⟨rfl, Except.ok.inj (h.symm.trans (decode_byteRead ha w))⟩
    | write => exact .inr ⟨rfl, Except.ok.inj (h.symm.trans (decode_byteWrite ha w))⟩

/-- A register write where no other row has the word is `sw`. -/
theorem decodeRegisterWrite_of_not_hasOwnRows {a : Offset} (h : Offset.hasOwnRows a = false) (w : Word) :
    decodeRegisterWrite a w = .sw a w := by
  obtain ⟨h0, h4, h8⟩ := hasOwnRows_eq_false_iff.mp h
  rw [decodeRegisterWrite, if_neg h0, if_neg h4, if_neg h8]

/-! ### Operations and the words of CMD, STATUS and CTRL -/

/-- Which command an operation names, by its number (30_encoding.md R55). -/
theorem decodeOp_eq_by_toNat (o : BitVec 3) (phase : Phase) : decodeOp o phase =
    if o.toNat = 1 then .cksum phase
    else if o.toNat = 2 then .encode phase
    else if o.toNat = 3 then .decode phase
    else if o.toNat = 0 then .reservedOp0 phase
    else if o.toNat = 4 then .reservedOp4 phase
    else if o.toNat = 5 then .reservedOp5 phase
    else if o.toNat = 6 then .reservedOp6 phase
    else .reservedOp7 phase := by
  have ho : ∀ o : BitVec 3, o = 0 ∨ o = 1 ∨ o = 2 ∨ o = 3 ∨ o = 4 ∨ o = 5 ∨ o = 6 ∨ o = 7 := by
    decide
  rcases ho o with rfl | rfl | rfl | rfl | rfl | rfl | rfl | rfl <;> rfl

/-- A CMD write decodes to the start of the command its bits 2:0 name (30_encoding.md R56). -/
theorem decode_cmdWrite (w : Word) :
    decode (.tx ⟨.write, 4, 0x000, w⟩) = .ok (decodeOp (w.extractLsb' 0 3) .start) :=
  decode_wordWrite (by decide) w

/-- The low bits of a zero-extended value are the value. -/
theorem extractLsb'_zext32 {n : Nat} (hn : n ≤ 32) (v : BitVec n) : (zext32 v).extractLsb' 0 n = v := by
  rw [← BitVec.setWidth_eq_extractLsb' hn, BitVec.setWidth_setWidth_of_le _ hn, BitVec.setWidth_eq]

/-- Both codes of an operation's command decode to it. -/
theorem decode_encodeCommand (o : BitVec 3) (phase : Phase) :
    decode (encodeCommand o phase) = .ok (decodeOp o phase) := by
  cases phase with
  | start => rw [encodeCommand, decode_cmdWrite, extractLsb'_zext32 (by decide)]
  | complete => rfl

/-- A STATUS word holds its two clear bits. -/
theorem statusWord_bits :
    ∀ d b : Bool, (statusWord d b).getLsbD 1 = d ∧ (statusWord d b).getLsbD 8 = b := by
  decide

/-- Bit `i` of a word, as a digit of its value. -/
theorem getLsbD_eq_decide (w : Word) (i : Nat) :
    w.getLsbD i = decide (w.toNat / 2 ^ i % 2 = 1) := by
  rw [Bool.eq_iff_iff, getLsbD_eq_true_iff, decide_eq_true_iff]

/-- Bit 31 is set in exactly the words from 2^31 on. -/
theorem getLsbD_31_eq_true_iff (w : Word) : w.getLsbD 31 = true ↔ 2 ^ 31 ≤ w.toNat := by
  refine ⟨le_toNat_of_getLsbD_31, fun h => ?_⟩
  rw [getLsbD_eq_true_iff]
  omega

/-! ### The answers are well formed -/

theorem decodeOp_wellFormed (o : BitVec 3) (phase : Phase) : (decodeOp o phase).wellFormed = true := by
  unfold decodeOp
  split_ifs <;> rfl

theorem decodeCtrlWord_wellFormed (w : Word) : (decodeCtrlWord w).wellFormed = true := by
  unfold decodeCtrlWord
  split <;> rfl

theorem entry_instr_wellFormed (e : Entry) : e.instr.wellFormed = true := by
  cases e <;> rfl

theorem decodeRegisterWrite_wellFormed {a : Offset} (h : legalWordOffset a = true) (w : Word) :
    (decodeRegisterWrite a w).wellFormed = true := by
  unfold decodeRegisterWrite
  split_ifs with h0 h4 h8
  · exact decodeOp_wellFormed _ _
  · rfl
  · exact decodeCtrlWord_wellFormed w
  · exact wellFormed_sw_iff.mpr ⟨h, hasOwnRows_eq_false_iff.mpr ⟨h0, h4, h8⟩⟩

/-! ### The statements -/

/-- Settles O1, one case for each row: the commands by their operation, the rows of CTRL and STATUS by their
bits, the four access forms by their operands' windows, and the dispatch entries by their keys. -/
theorem decodeInvertsEncode : Obligations.DecodeInvertsEncode := by
  intro i hi
  cases i with
  | cksum p => exact decode_encodeCommand 1 p
  | encode p => exact decode_encodeCommand 2 p
  | decode p => exact decode_encodeCommand 3 p
  | reservedOp0 p => exact decode_encodeCommand 0 p
  | reservedOp4 p => exact decode_encodeCommand 4 p
  | reservedOp5 p => exact decode_encodeCommand 5 p
  | reservedOp6 p => exact decode_encodeCommand 6 p
  | reservedOp7 p => exact decode_encodeCommand 7 p
  | srst => exact decode_ctrlWrite_srst (by decide)
  | setCtrl b =>
    cases b with
    | false => exact decode_ctrlWrite_setCtrl (by decide)
    | true => exact decode_ctrlWrite_setCtrl (by decide)
  | clearStatus d b =>
    obtain ⟨hd, hb⟩ := statusWord_bits d b
    rw [encode, decode_statusWrite, hd, hb]
  | sw a w =>
    obtain ⟨hlegal, hrows⟩ := wellFormed_sw_iff.mp hi
    rw [encode, decode_wordWrite hlegal, decodeRegisterWrite_of_not_hasOwnRows hrows]
  | lw a => exact decode_wordRead (wellFormed_lw_iff.mp hi) 0
  | sb a v =>
    rw [encode, decode_byteWrite (wellFormed_sb_iff.mp hi), extractLsb'_zext32 (by decide)]
  | lb a => exact decode_byteRead (wellFormed_lb_iff.mp hi) 0
  | frameLightStatus => exact decode_key_entry .lightStatus
  | frameTimerAutoLight => exact decode_key_entry .timerAutoLight
  | frameTimerAutoMusic => exact decode_key_entry .timerAutoMusic
  | frameTimerAlarm1 => exact decode_key_entry .timerAlarm1
  | frameTimerAlarm2 => exact decode_key_entry .timerAlarm2
  | frameTimerAlarm3 => exact decode_key_entry .timerAlarm3
  | frameSpeakerVolume => exact decode_key_entry .speakerVolume
  | frameSpeakerEqualizer => exact decode_key_entry .speakerEqualizer

/-- Settles O2: a transaction's answer has its operand from a legal offset; operations and keys give rows
without an offset. -/
theorem decodedInstructionIsWellFormed : Obligations.DecodedInstructionIsWellFormed := by
  intro code i h
  cases code with
  | tx t =>
    rcases decode_tx_ok_cases h with ⟨ha, ⟨_, rfl⟩ | ⟨_, rfl⟩⟩ | ⟨ha, ⟨_, rfl⟩ | ⟨_, rfl⟩⟩
    · exact wellFormed_lw_iff.mpr ha
    · exact decodeRegisterWrite_wellFormed ha t.data
    · exact wellFormed_lb_iff.mpr ha
    · exact wellFormed_sb_iff.mpr ha
  | op o =>
    cases h
    exact decodeOp_wellFormed o .complete
  | key k =>
    simp only [decode] at h
    split at h
    · cases h
      exact entry_instr_wellFormed _
    · cases h

/-- Settles O4: the bits the decoder reads, as digits of the word's value. -/
theorem statusAndCtrlWordsHaveTwoMeaningfulBits :
    Obligations.StatusAndCtrlWordsHaveTwoMeaningfulBits := by
  intro w
  refine ⟨?_, ?_⟩
  · rw [decode_statusWrite, getLsbD_eq_decide w 1, getLsbD_eq_decide w 8]
    rfl
  · rw [decode_ctrlWrite, decodeCtrlWord, getLsbD_eq_decide w 0]
    simp only [getLsbD_31_eq_true_iff, pow_zero, Nat.div_one]

/-- Settles O5: both searches find exactly the entry with the key, so their orders do not matter. -/
theorem keyDecoderMatchesTableOrder : Obligations.KeyDecoderMatchesTableOrder := by
  intro c hc
  refine ⟨fun k e => decodeKey_eq_some_iff hc, fun cat fn => Option.ext fun e => ?_⟩
  rw [decodeKey_eq_some_iff hc, dispatch_eq_some_iff hc]

/-- Settles O3: the operation a CMD word names is its value modulo 8. -/
theorem cmdWordSelectsByItsLowThreeBits : Obligations.CmdWordSelectsByItsLowThreeBits := by
  intro w
  have hop : (w.extractLsb' 0 3).toNat = w.toNat % 8 := by simp
  rw [decode_cmdWrite, decodeOp_eq_by_toNat, hop]

/-- Settles O7: the equation of each word's form, at that word. -/
theorem specWordsDecodeToTheirInstructions : Obligations.SpecWordsDecodeToTheirInstructions :=
  ⟨decode_cmdWrite _, decode_encodeCommand 2 .complete, decode_ctrlWrite_srst (by decide),
    decode_statusWrite _, decode_wordWrite (by decide) _, decode_byteRead (by decide) _,
    decode_key_entry .lightStatus, decode_key_entry .speakerVolume⟩

end Sys2Proof.Machine

/-! SUPPORT. The checksum as a complement and as an accumulator, and the completion of CKSUM
(40_checksum.md). -/
namespace Sys2Proof.Machine

/-! ### The value of the checksum -/

/-- R72's remainder, with the length's multiple of 256 gone. -/
theorem checksum_toNat (s : List Byte) : (checksum s).toNat = 255 - byteSum s % 256 := by
  simp only [checksum, BitVec.toNat_ofInt]
  omega

theorem checksum_eq_not (s : List Byte) : checksum s = ~~~BitVec.ofNat 8 (byteSum s) := by
  apply BitVec.eq_of_toNat_eq
  rw [checksum_toNat, BitVec.toNat_not, BitVec.toNat_ofNat]

/-- Exclusive-or with eight ones is the complement. -/
theorem checksum_eq_xor (s : List Byte) : checksum s = BitVec.ofNat 8 (byteSum s) ^^^ 0xFF#8 := by
  rw [checksum_eq_not, ← BitVec.xor_allOnes]
  rfl

/-! ### Sums in any order, and in eight bits -/

theorem byteSum_perm {s t : List Byte} (h : s.Perm t) : byteSum s = byteSum t :=
  (h.map BitVec.toNat).sum_nat

/-- Adding bytes one by one in eight bits adds their unbounded sum, from any start. -/
theorem foldl_add_eq (s : List Byte) (acc : Byte) :
    s.foldl (fun acc b => acc + b) acc = acc + BitVec.ofNat 8 (byteSum s) := by
  induction s generalizing acc with
  | nil => simp
  | cons b s ih =>
    rw [List.foldl_cons, ih, byteSum_cons, BitVec.ofNat_add, BitVec.ofNat_toNat, BitVec.setWidth_eq,
      BitVec.add_assoc]

/-- The checksum brings the sum to 255 more than a multiple of 256 (40_checksum.md R75). -/
theorem byteSum_append_checksum (s : List Byte) : byteSum (s ++ [checksum s]) % 256 = 255 := by
  rw [byteSum_append, byteSum_cons, byteSum_nil, checksum_toNat]
  omega

/-- Every frame of `Encode` ends in the checksum of the bytes before it. -/
theorem encodeFrame_byteSum {cat fn : Byte} {p f : List Byte} (h : encodeFrame cat fn p = some f) :
    byteSum f % 256 = 255 := by
  obtain ⟨_, rfl⟩ := encodeFrame_eq_some h
  exact byteSum_append_checksum _

/-! ### The completion of CKSUM -/

/-- The completion of a pending CKSUM runs its body and ends the command (44_command_interface.md R116). -/
theorem exec_cksum_complete_of_pending {s : State} (hb : s.busy = true) (ho : s.cmdOp = 1) :
    exec (.cksum .complete) s = .next (finish (cksumBody s)) :=
  congrArg Host.Outcome.next (completeCommand_of_pending hb ho)

/-! ### The statements -/

/-- Settles O9: the value, the complement and the exclusive-or; reducing the sum first changes no eight
bits of it. -/
theorem checksumIsComplementOfSum : Obligations.ChecksumIsComplementOfSum := by
  intro s
  have hmod : BitVec.ofNat 8 (byteSum s % 256) = BitVec.ofNat 8 (byteSum s) :=
    BitVec.eq_of_toNat_eq (by simp)
  exact ⟨checksum_toNat s, checksum_eq_not s, hmod ▸ checksum_eq_xor s⟩

/-- Settles O10: a frame of `Encode` is one of the sequences of the first part. -/
theorem frameSumsToAllOnes : Obligations.FrameSumsToAllOnes :=
  ⟨byteSum_append_checksum, fun _ _ _ _ => encodeFrame_byteSum⟩

/-- Settles O11: the accumulator holds the low eight bits of the sum, and the sum has no order. -/
theorem accumulatorInAnyOrderGivesChecksum : Obligations.AccumulatorInAnyOrderGivesChecksum := by
  intro s t h
  rw [foldl_add_eq, zero_add, checksum_eq_xor, byteSum_perm h]

/-- Settles O22, by the two things the body of CKSUM can do: LEN is over 512, or it is not. -/
theorem cksumCompletion : Obligations.CksumCompletion := by
  intro s hb ho
  rw [exec_cksum_complete_of_pending hb ho]
  rcases cksumBody_cases s with ⟨hlen, hbody⟩ | ⟨hlen, hbody⟩
  · rw [if_neg (Nat.not_le.mpr hlen), hbody]
    rfl
  · rw [if_pos hlen, hbody]
    rfl

end Sys2Proof.Machine

/-! SUPPORT. The frame that `Encode` builds, byte by byte, and the completion of ENCODE
(41_frame_builder.md). -/
namespace Sys2Proof.Machine

/-! ### The bytes of a frame -/

/-- The category and the function follow the payload length (41_frame_builder.md R81). -/
theorem encodeFrame_category_function {cat fn : Byte} {p f : List Byte}
    (h : encodeFrame cat fn p = some f) : byteAt f 3 = cat ∧ byteAt f 4 = fn := by
  obtain ⟨_, rfl⟩ := encodeFrame_eq_some h
  exact ⟨rfl, rfl⟩

/-- The payload stands between the five header bytes and the checksum, in order. -/
theorem encodeFrame_payload {cat fn : Byte} {p f : List Byte} (h : encodeFrame cat fn p = some f)
    {i : Nat} (hi : i < p.length) : byteAt f (5 + i) = byteAt p i := by
  obtain ⟨_, rfl⟩ := encodeFrame_eq_some h
  have hheader := frameHeader_length cat fn p.length
  rw [byteAt_append_left _ _ (by rw [List.length_append]; omega),
    byteAt_append_right _ _ (by omega), hheader, Nat.add_sub_cancel_left]

/-! ### The completion of ENCODE -/

/-- The completion of a pending ENCODE runs its body and ends the command (44_command_interface.md R116). -/
theorem exec_encode_complete_of_pending {s : State} (hb : s.busy = true) (ho : s.cmdOp = 2) :
    exec (.encode .complete) s = .next (finish (encodeBody s)) :=
  congrArg Host.Outcome.next (completeCommand_of_pending hb ho)

/-- A whole frame written to OBUF reads back (41_frame_builder.md R82). -/
theorem obuf_writeObuf_length (s : State) (f : List Byte) : (s.writeObuf f).obuf f.length = f := by
  rw [obuf_writeObuf s le_rfl, List.take_length]

/-- The bytes outside OBUF[0..len(f)-1] are kept. -/
theorem readByte_writeObuf_outside (s : State) {f : List Byte} {a : Nat}
    (h : a < 0x800 ∨ 0x800 + f.length ≤ a) : (s.writeObuf f).readByte a = s.readByte a := by
  rw [readByte_writeObuf, if_neg (by simp only [obufOffset]; omega)]

/-! ### The statements -/

/-- Settles O12: the frame is the header, the payload and the checksum of both. -/
theorem encodedFrameLayout : Obligations.EncodedFrameLayout := by
  intro cat fn p hp
  have hf := encodeFrame_of_le (cat := cat) (fn := fn) hp
  obtain ⟨h0, h1, h2, hc⟩ := encodeFrame_header_checksum hf
  obtain ⟨h3, h4⟩ := encodeFrame_category_function hf
  rw [Nat.add_comm p.length 5] at hc
  exact ⟨_, hf, encodeFrame_length hf, h0, h1, h2, h3, h4, fun _ => encodeFrame_payload hf, hc,
    encodeFrame_byteSum hf⟩

/-- Settles O23, by the three things the body of ENCODE can do: LEN is over 512, or over 255 only, or the
frame is built. -/
theorem encodeCompletion : Obligations.EncodeCompletion := by
  intro s hb ho
  rw [exec_encode_complete_of_pending hb ho]
  rcases encodeBody_cases s with ⟨hlen, hbody⟩ | ⟨hlo, hhi, hbody⟩ | ⟨hlen, f, hf, hflen, hbody⟩ <;>
    rw [hbody]
  · exact ⟨fun _ => by omega, fun _ _ => by omega, fun _ => rfl⟩
  · exact ⟨fun _ => by omega, fun _ _ => rfl, fun _ => by omega⟩
  · refine ⟨fun _ => ⟨_, f, rfl, hf, ?_, fun a ha => ?_, ?_⟩, fun _ _ => by omega, fun _ => by omega⟩
    · rw [← hflen]
      exact obuf_writeObuf_length s f
    · exact readByte_writeObuf_outside s (by omega)
    · have hn : BitVec.ofNat 16 (s.ibufLen.toNat + 6) = s.ibufLen + 6 :=
        BitVec.eq_of_toNat_eq (by simp)
      rw [hn]
      rfl

/-- Settles O13: the frame is built up to 255 bytes, and a frame's payload has no more. -/
theorem encodeDefinedUpTo255Bytes : Obligations.EncodeDefinedUpTo255Bytes :=
  fun _ _ _ => ⟨fun ⟨_, hf⟩ => (encodeFrame_eq_some hf).1, fun hp => ⟨_, encodeFrame_of_le hp⟩⟩

end Sys2Proof.Machine

/-! SUPPORT. The parser `Decode`, clause by clause: what it answers by the length and the dispatched entry,
which bytes it reads, and what it makes of a frame of `Encode` (42_frame_parser.md R83 to R93). -/
namespace Sys2Proof.Machine

/-! ### The clauses of `Decode` -/

/-- 42_frame_parser.md R85. -/
theorem decodeFrame_of_short (c : Codes) {b : List Byte} (h1 : 1 ≤ b.length) (h4 : b.length ≤ 4) :
    decodeFrame c (some b) = .truncated := by
  rw [decodeFrame, if_neg (by omega), if_pos (by simp only [Config.hdrLen]; omega)]

/-- 42_frame_parser.md R87. -/
theorem decodeFrame_of_dispatch_none {c : Codes} {b : List Byte} (h5 : 5 ≤ b.length)
    (h : dispatch c (byteAt b 3) (byteAt b 4) = none) : decodeFrame c (some b) = .empty := by
  rw [decodeFrame, if_neg (by omega), if_neg (by simp only [Config.hdrLen]; omega), h]

/-- From 5 bytes on the dispatched entry's arm answers. -/
theorem decodeFrame_of_dispatch_some {c : Codes} {b : List Byte} {e : Entry} (h5 : 5 ≤ b.length)
    (h : dispatch c (byteAt b 3) (byteAt b 4) = some e) : decodeFrame c (some b) = entryResult e b := by
  rw [decodeFrame, if_neg (by omega), if_neg (by simp only [Config.hdrLen]; omega), h]

/-- Under a well-formed configuration a buffer with an entry's pair is answered by that entry's arm. -/
theorem decodeFrame_of_pair {c : Codes} (hc : c.WellFormed) {e : Entry} {b : List Byte}
    (h5 : 5 ≤ b.length) (hcat : byteAt b 3 = e.category c) (hfn : byteAt b 4 = e.function c) :
    decodeFrame c (some b) = entryResult e b := by
  refine decodeFrame_of_dispatch_some h5 ((dispatch_eq_some_iff hc).mpr ?_)
  rw [hcat, hfn, Entry.key]

/-! ### An entry's arm and the offsets it reads -/

/-- 42_frame_parser.md R88. -/
theorem entryResult_of_lt {e : Entry} {b : List Byte} (h : b.length < kindMinLen (entryKind e)) :
    entryResult e b = .truncated := if_pos h

/-- 42_frame_parser.md R89. -/
theorem entryResult_of_le {e : Entry} {b : List Byte} (h : kindMinLen (entryKind e) ≤ b.length) :
    entryResult e b = .fields (entryKind e) ((kindOffsets (entryKind e)).map fun o => byteAt b o) :=
  if_neg (Nat.not_lt.mpr h)

theorem entryResult_eq_truncated_iff {e : Entry} {b : List Byte} :
    entryResult e b = .truncated ↔ b.length < kindMinLen (entryKind e) := by
  refine ⟨fun h => Nat.lt_of_not_le fun hle => ?_, entryResult_of_lt⟩
  cases (entryResult_of_le hle).symm.trans h

/-- A minimum length is one more than the highest offset read (30_encoding.md R66): below it, and only there,
an offset is out of range. -/
theorem lt_kindMinLen_iff (k : Kind) (n : Nat) : n < kindMinLen k ↔ ∃ o ∈ kindOffsets k, n ≤ o := by
  have hlast : ∃ o ∈ kindOffsets k, kindMinLen k = o + 1 := by cases k <;> decide
  refine ⟨fun h => ?_, fun ⟨o, ho, hn⟩ => Nat.lt_of_le_of_lt hn (kindOffsets_lt_minLen k o ho)⟩
  obtain ⟨o, ho, hmin⟩ := hlast
  exact ⟨o, ho, by omega⟩

/-- No extractor reads a byte before the function code. -/
theorem four_le_of_mem_kindOffsets (k : Kind) : ∀ o ∈ kindOffsets k, 4 ≤ o := by
  cases k <;> decide

/-- An entry's arm reads the length and the bytes at its offsets only. -/
theorem entryResult_congr {e : Entry} {b b' : List Byte} (hlen : b.length = b'.length)
    (h : ∀ o ∈ kindOffsets (entryKind e), byteAt b o = byteAt b' o) :
    entryResult e b = entryResult e b' := by
  rw [entryResult, entryResult, hlen, extract, extract, List.map_congr_left h]

/-! ### A frame of `Encode` -/

/-- Which byte of a frame stands at an offset that an extractor reads: the function code, a payload byte or the
checksum. -/
theorem byteAt_encodeFrame {cat fn : Byte} {p f : List Byte} (h : encodeFrame cat fn p = some f) {o : Nat}
    (hlo : 4 ≤ o) (hhi : o < p.length + 6) :
    byteAt f o = if o = 4 then fn
      else if o ≤ 4 + p.length then byteAt p (o - 5)
      else checksum (f.take (5 + p.length)) := by
  split_ifs with h4 hp
  · rw [h4, (encodeFrame_category_function h).2]
  · rw [← encodeFrame_payload h (by omega : o - 5 < p.length), Nat.add_sub_cancel' (by omega)]
  · obtain ⟨_, _, _, hck⟩ := encodeFrame_header_checksum h
    rw [Nat.add_comm 5, ← hck, show o = p.length + 5 by omega]

/-! ### The statements -/

/-- Settles O6: the search of the table answers the first match, and a pair is a key. -/
theorem firstMatchingEntryIsTaken : Obligations.FirstMatchingEntryIsTaken := by
  refine ⟨rfl, fun c cat fn e => ?_, fun c hc e e' hcat hfn => ?_⟩
  · rw [dispatch, List.find?_eq_some_iff_append]
    simp only [Bool.and_eq_true, decide_eq_true_eq, Bool.not_eq_true', ← Bool.not_eq_true]
    constructor
    · rintro ⟨⟨hcat, hfn⟩, before, after, htable, hbefore⟩
      exact ⟨before, after, htable, hcat, hfn, hbefore⟩
    · rintro ⟨before, after, htable, hcat, hfn, hbefore⟩
      exact ⟨⟨hcat, hfn⟩, before, after, htable, hbefore⟩
  · exact key_injective hc (congrArg₂ keyOf hcat hfn)

/-- Settles O14: the clauses of `Decode` before an entry's arm. -/
theorem shortIsTruncatedAndUnknownIsEmpty : Obligations.ShortIsTruncatedAndUnknownIsEmpty := by
  refine ⟨fun c => ⟨rfl, rfl⟩, fun c b => ⟨decodeFrame_of_short c, fun h5 hno => ?_⟩⟩
  cases hd : dispatch c (byteAt b 3) (byteAt b 4) with
  | none => exact decodeFrame_of_dispatch_none h5 hd
  | some e => exact absurd (dispatch_some hd) (hno e)

/-- Settles O15: the arm of the entry with the buffer's pair, on both sides of its minimum length. -/
theorem matchedEntryGivesItsFields : Obligations.MatchedEntryGivesItsFields := by
  intro c hc e b h5 hcat hfn
  rw [decodeFrame_of_pair hc h5 hcat hfn]
  exact ⟨entryResult_of_lt, entryResult_of_le⟩

/-- Settles O16, by the length (0, 1 to 4, from 5 on) and then by the dispatched entry. -/
theorem truncatedExactlyWhenAReadIsOutOfRange : Obligations.TruncatedExactlyWhenAReadIsOutOfRange := by
  intro c b
  rcases Nat.lt_or_ge b.length 1 with h0 | h1
  · obtain rfl : b = [] := List.length_eq_zero_iff.mp (by omega)
    simp [decodeFrame]
  rcases Nat.lt_or_ge b.length 5 with h4 | h5
  · exact iff_of_true (decodeFrame_of_short c h1 (by omega)) (.inl ⟨h1, by omega⟩)
  have hlong : ¬(1 ≤ b.length ∧ b.length ≤ 4) := by omega
  cases hd : dispatch c (byteAt b 3) (byteAt b 4) with
  | none => simp [decodeFrame_of_dispatch_none h5 hd, hlong]
  | some e =>
    rw [decodeFrame_of_dispatch_some h5 hd, entryResult_eq_truncated_iff, lt_kindMinLen_iff]
    simp [hlong, h5]

/-- Settles O17, by the length and the dispatched entry, which the two buffers share. -/
theorem decodeReadsNoOtherByte : Obligations.DecodeReadsNoOtherByte := by
  intro c b b' hlen h3 h4 hoff
  rcases Nat.lt_or_ge b.length 1 with h0 | h1
  · obtain rfl : b = [] := List.length_eq_zero_iff.mp (by omega)
    obtain rfl : b' = [] := List.length_eq_zero_iff.mp hlen.symm
    rfl
  rcases Nat.lt_or_ge b.length 5 with hlt | h5
  · rw [decodeFrame_of_short c h1 (by omega), decodeFrame_of_short c (by omega) (by omega)]
  have h5' : 5 ≤ b'.length := hlen ▸ h5
  have hsame : dispatch c (byteAt b' 3) (byteAt b' 4) = dispatch c (byteAt b 3) (byteAt b 4) := by
    rw [h3, h4]
  cases hd : dispatch c (byteAt b 3) (byteAt b 4) with
  | none =>
    rw [decodeFrame_of_dispatch_none h5 hd, decodeFrame_of_dispatch_none h5' (hsame.trans hd)]
  | some e =>
    rw [decodeFrame_of_dispatch_some h5 hd, decodeFrame_of_dispatch_some h5' (hsame.trans hd),
      entryResult_congr hlen (hoff e hd)]

/-- Settles O18: the frame has the entry's pair and is long enough, and every offset read lies in it. -/
theorem encodedFrameIsRecognised : Obligations.EncodedFrameIsRecognised := by
  intro c hc e p hp hmin
  have hf := encodeFrame_of_le (cat := e.category c) (fn := e.function c) hp
  have hlen := encodeFrame_length hf
  obtain ⟨hcat, hfn⟩ := encodeFrame_category_function hf
  refine ⟨_, hf, ?_⟩
  rw [decodeFrame_of_pair hc (by omega) hcat hfn, entryResult_of_le (by omega)]
  refine congrArg _ (List.map_congr_left fun o ho => ?_)
  exact byteAt_encodeFrame hf (four_le_of_mem_kindOffsets _ o ho)
    (Nat.lt_of_lt_of_le (kindOffsets_lt_minLen _ o ho) hmin)

end Sys2Proof.Machine

/-! SUPPORT. The completion of DECODE and of its dispatch entries: what it writes for each result, and that it
depends on IBUF and IBUF_LEN alone (42_frame_parser.md R84, R91, R94 to R102). -/
namespace Sys2Proof.Machine

/-! ### The completion and its results -/

/-- The completion of a pending DECODE runs its body and ends the command (44_command_interface.md R116). -/
theorem exec_decode_complete_of_pending {s : State} (hb : s.busy = true) (ho : s.cmdOp = 3) :
    exec (.decode .complete) s =
      .next (finish (decodeBody (fun b => decodeFrame Config.codes (some b)) s)) :=
  congrArg Host.Outcome.next (completeCommand_of_pending hb ho)

/-- An accepted DECODE command (44_command_interface.md R115). -/
theorem exec_decode_start_of_idle {s : State} (hb : s.busy = false) :
    exec (.decode .start) s = .next (respond .ack (cmdStart 3 s)) :=
  congrArg (fun t => Host.Outcome.next (respond .ack t)) (lockedWrite_of_idle hb)

/-- DEC_FIELD0 to DEC_FIELD7 hold the values in slot order, and 0 past them (10_state.md R32). -/
theorem setDecoded_decField_eq_ofFn (k : BitVec 4) (vs : List Byte) (s : State) :
    (setDecoded k vs s).decField = Vector.ofFn fun i => vs.getD i.val 0 := by
  refine Vector.ext fun i hi => ?_
  rw [Vector.getElem_ofFn]
  exact setDecoded_decField_getElem k vs s ⟨i, hi⟩

/-- A completion with fields. -/
theorem finish_setErr_setDecoded (k : BitVec 4) (vs : List Byte) (s : State) :
    finish (setErr .ok (setDecoded k vs s)) =
      { s with decKind := k, decCount := BitVec.ofNat 4 vs.length,
               decField := Vector.ofFn (fun i => vs.getD i.val 0), err := 0, busy := false,
               done := true } := by
  rw [← setDecoded_decField_eq_ofFn k vs s]
  rfl

/-! ### What the body of DECODE reads -/

/-- BAD_LENGTH, and the parse of the buffer is not asked. -/
theorem decodeBody_of_gt (parse : List Byte → DecodeResult) {s : State} (h : 512 < s.ibufLen.toNat) :
    decodeBody parse s = failWith .badLength (setDecoded 0 [] s) := if_pos (badLength_eq_true.mpr h)

/-- Up to 512 bytes the parse of the buffer is written over the cleared results. -/
theorem decodeBody_of_le (parse : List Byte → DecodeResult) {s : State} (h : s.ibufLen.toNat ≤ 512) :
    decodeBody parse s = writeResult (parse (inputBytes s)) (setDecoded 0 [] s) :=
  if_neg (ne_true_of_eq_false (badLength_eq_false.mpr h))

/-- The body looks at the parse of the bytes in IBUF and at no other. -/
theorem decodeBody_congr_parse {parse parse' : List Byte → DecodeResult} {s : State}
    (h : parse (inputBytes s) = parse' (inputBytes s)) : decodeBody parse s = decodeBody parse' s := by
  rw [decodeBody, decodeBody, h]

/-- The results depend on IBUF_LEN and the bytes read alone (42_frame_parser.md R91). -/
theorem decodeBody_results_congr (parse : List Byte → DecodeResult) {s u : State}
    (hlen : u.ibufLen = s.ibufLen) (hbytes : inputBytes u = inputBytes s) :
    (decodeBody parse u).decKind = (decodeBody parse s).decKind ∧
    (decodeBody parse u).decCount = (decodeBody parse s).decCount ∧
    (decodeBody parse u).decField = (decodeBody parse s).decField ∧
    (decodeBody parse u).err = (decodeBody parse s).err := by
  rcases Nat.lt_or_ge 512 s.ibufLen.toNat with hgt | hle
  · rw [decodeBody_of_gt parse hgt, decodeBody_of_gt parse (hlen ▸ hgt)]
    exact ⟨rfl, rfl, rfl, rfl⟩
  · rw [decodeBody_of_le parse hle, decodeBody_of_le parse (hlen ▸ hle), hbytes]
    cases parse (inputBytes s) <;> exact ⟨rfl, rfl, rfl, rfl⟩

theorem decodeBody_ibufLen (parse : List Byte → DecodeResult) (s : State) :
    (decodeBody parse s).ibufLen = s.ibufLen := by
  rcases decodeBody_cases parse s with ⟨_, h⟩ | ⟨_, _, h⟩ | ⟨_, _, h⟩ | ⟨_, _, _, _, h⟩ <;>
    exact h ▸ rfl

/-- The bytes a command reads depend on IBUF_LEN and the buffer bytes. -/
theorem inputBytes_congr {s u : State} (hlen : u.ibufLen = s.ibufLen)
    (hread : ∀ a, u.readByte a = s.readByte a) : inputBytes u = inputBytes s := by
  simp only [inputBytes, State.ibuf, hlen, hread]

/-- A DECODE started again after its completion finds IBUF_LEN and every buffer byte as they were. -/
theorem restarted_decode_keeps_inputs (parse : List Byte → DecodeResult) (s : State) :
    (respond .ack (cmdStart 3 (finish (decodeBody parse s)))).ibufLen = s.ibufLen ∧
      ∀ a, (respond .ack (cmdStart 3 (finish (decodeBody parse s)))).readByte a = s.readByte a := by
  obtain ⟨_, _, hread⟩ := decodeBody_keeps parse s
  exact ⟨decodeBody_ibufLen parse s, hread⟩

/-! ### A buffer with an entry's key -/

/-- A pending DECODE that reads an entry's key is answered by that entry's arm. -/
theorem decodeFrame_inputBytes_of_key {s : State} {e : Entry} (hr : readsKey s = true)
    (hk : inputKey s = e.key Config.codes) :
    decodeFrame Config.codes (some (inputBytes s)) = entryResult e (inputBytes s) := by
  obtain ⟨_, _, _, h5⟩ := readsKey_eq_true.mp hr
  obtain ⟨hcat, hfn⟩ := keyOf_inj hk
  refine decodeFrame_of_pair Config.configuration.wellFormed (by rwa [inputBytes_length]) ?_ ?_
  · rw [byteAt_inputBytes (by omega), hcat]
    rfl
  · rw [byteAt_inputBytes (by omega), hfn]
    rfl

/-- The values an entry's extractor takes from IBUF. -/
theorem map_byteAt_inputBytes {s : State} {k : Kind} (h : kindMinLen k ≤ s.ibufLen.toNat) :
    ((kindOffsets k).map fun o => byteAt (inputBytes s) o) =
      (kindOffsets k).map fun o => s.readByte (ibufOffset o) :=
  List.map_congr_left fun o ho =>
    byteAt_inputBytes (Nat.lt_of_lt_of_le (kindOffsets_lt_minLen k o ho) h)

/-- The completion of a DECODE over 5 to 512 bytes with an entry's codes, by that entry's instruction: TRUNCATED
below the minimum length, and from it on the entry's kind and the bytes at its offsets. -/
theorem exec_entry_of_pending {s : State} {e : Entry} (hb : s.busy = true) (ho : s.cmdOp = 3)
    (h5 : 5 ≤ s.ibufLen.toNat) (h512 : s.ibufLen.toNat ≤ 512)
    (hcat : s.readByte 0x403 = e.category Config.codes) (hfn : s.readByte 0x404 = e.function Config.codes) :
    exec e.instr s = .next
      (if s.ibufLen.toNat < kindMinLen (entryKind e) then
        finish (setErr .truncated (setDecoded 0 [] s))
      else
        finish (setErr .ok (setDecoded (kindCode (entryKind e))
          ((kindOffsets (entryKind e)).map fun o => s.readByte (ibufOffset o)) s))) := by
  have hr : readsKey s = true := readsKey_eq_true.mpr ⟨hb, ho, h512, h5⟩
  have hk : inputKey s = e.key Config.codes := congrArg₂ keyOf hcat hfn
  rw [exec_entry, completeFrame, if_pos ⟨hr, hk⟩, decodeBody_of_le _ h512]
  split_ifs with hmin
  · rw [entryResult_of_lt (by rwa [inputBytes_length])]
    rfl
  · have hmin := Nat.le_of_not_lt hmin
    rw [entryResult_of_le (by rwa [inputBytes_length]), map_byteAt_inputBytes hmin]
    rfl

/-! ### The statements -/

/-- Settles O24: LEN is over 512, or the parse of the buffer is one of the three results. -/
theorem decodeCompletion : Obligations.DecodeCompletion := by
  intro s hb ho
  rw [exec_decode_complete_of_pending hb ho]
  rcases Nat.lt_or_ge 512 s.ibufLen.toNat with hgt | hle
  · rw [if_pos hgt, decodeBody_of_gt _ hgt]
    rfl
  · rw [if_neg (Nat.not_lt.mpr hle), decodeBody_of_le _ hle, inputBytes]
    cases decodeFrame Config.codes (some (s.ibuf s.ibufLen.toNat)) with
    | empty => rfl
    | truncated => rfl
    | fields k vs => exact congrArg Host.Outcome.next (finish_setErr_setDecoded (kindCode k) vs s)

/-- Settles O55: no byte is read, and `Decode` of none is Empty. -/
theorem zeroLengthDecodeReportsNothing : Obligations.ZeroLengthDecodeReportsNothing := by
  intro s hb ho hlen
  have hempty : decodeFrame Config.codes (some (s.ibuf s.ibufLen.toNat)) = .empty := by
    rw [hlen]
    rfl
  rw [decodeCompletion s hb ho, if_neg (by simp [hlen]), hempty]

/-- Settles O31: both run the body of DECODE, and their parses agree on the buffer. -/
theorem frameInstructionAgreesWithDecode : Obligations.FrameInstructionAgreesWithDecode := by
  intro s e hr hk
  obtain ⟨hb, ho, _, _⟩ := readsKey_eq_true.mp hr
  have hbody : decodeBody (entryResult e) s = decodeBody (fun b => decodeFrame Config.codes (some b)) s :=
    decodeBody_congr_parse (decodeFrame_inputBytes_of_key hr hk).symm
  rw [exec_entry, completeFrame, if_pos ⟨hr, hk⟩, exec_decode_complete_of_pending hb ho, hbody]

/-- Settles O32: the first completion and the second start keep IBUF and IBUF_LEN, which fix the results. -/
theorem decodeTwiceGivesTheSameResults : Obligations.DecodeTwiceGivesTheSameResults := by
  intro s hb ho
  obtain ⟨hlen, hread⟩ := restarted_decode_keeps_inputs (fun b => decodeFrame Config.codes (some b)) s
  obtain ⟨hkind, hcount, hfield, herr⟩ := decodeBody_results_congr
    (fun b => decodeFrame Config.codes (some b)) hlen (inputBytes_congr hlen hread)
  obtain ⟨_, _, hkept⟩ := decodeBody_keeps (fun b => decodeFrame Config.codes (some b))
    (respond .ack (cmdStart 3 (finish (decodeBody (fun b => decodeFrame Config.codes (some b)) s))))
  exact ⟨_, _, _, exec_decode_complete_of_pending hb ho, exec_decode_start_of_idle rfl,
    exec_decode_complete_of_pending rfl rfl, hkind, hcount, hfield, herr,
    fun a => (hkept a).trans (hread a)⟩

/-- Settles O26: entry 1. -/
theorem lightStatusFrameCompletion : Obligations.LightStatusFrameCompletion :=
  fun _ hb ho h5 h512 hcat hfn => exec_entry_of_pending (e := .lightStatus) hb ho h5 h512 hcat hfn

/-- Settles O27: entries 2 and 3, whose function code is byte 4. -/
theorem timerAutoFrameCompletion : Obligations.TimerAutoFrameCompletion := by
  rintro s hb ho h5 h512 hcat i fn hi rfl
  rcases hi with ⟨rfl, hfn⟩ | ⟨rfl, hfn⟩
  · exact exec_entry_of_pending (e := .timerAutoLight) hb ho h5 h512 hcat hfn
  · exact exec_entry_of_pending (e := .timerAutoMusic) hb ho h5 h512 hcat hfn

/-- Settles O28: entries 4, 5 and 6, whose function code is byte 4. -/
theorem timerAlarmFrameCompletion : Obligations.TimerAlarmFrameCompletion := by
  rintro s hb ho h5 h512 hcat i fn hi rfl
  rcases hi with ⟨rfl, hfn⟩ | ⟨rfl, hfn⟩ | ⟨rfl, hfn⟩
  · exact exec_entry_of_pending (e := .timerAlarm1) hb ho h5 h512 hcat hfn
  · exact exec_entry_of_pending (e := .timerAlarm2) hb ho h5 h512 hcat hfn
  · exact exec_entry_of_pending (e := .timerAlarm3) hb ho h5 h512 hcat hfn

/-- Settles O29: entry 7. -/
theorem speakerVolumeFrameCompletion : Obligations.SpeakerVolumeFrameCompletion :=
  fun _ hb ho h5 h512 hcat hfn => exec_entry_of_pending (e := .speakerVolume) hb ho h5 h512 hcat hfn

/-- Settles O30: entry 8. -/
theorem speakerEqualizerFrameCompletion : Obligations.SpeakerEqualizerFrameCompletion :=
  fun _ hb ho h5 h512 hcat hfn => exec_entry_of_pending (e := .speakerEqualizer) hb ho h5 h512 hcat hfn

end Sys2Proof.Machine

/-! SUPPORT. The start and the completion of every operation, and the engine's step, which completes the pending
one whichever code it fetches (44_command_interface.md R110, R115, R116, R118). -/
namespace Sys2Proof.Machine

/-! ### Starting a command -/

/-- An accepted CMD write starts the operation it names (44_command_interface.md R115). -/
theorem exec_decodeOp_start_of_idle {s : State} (hb : s.busy = false) (o : BitVec 3) :
    exec (decodeOp o .start) s = .next (respond .ack (cmdStart o s)) := by
  rw [exec_decodeOp_start, writeCmd, lockedWrite_of_idle hb]

/-! ### Completing a command -/

theorem cksumBody_cmdOp (s : State) : (cksumBody s).cmdOp = s.cmdOp := by
  rcases cksumBody_cases s with ⟨_, h⟩ | ⟨_, h⟩ <;> exact h ▸ rfl

theorem encodeBody_cmdOp (s : State) : (encodeBody s).cmdOp = s.cmdOp := by
  rcases encodeBody_cases s with ⟨_, h⟩ | ⟨_, _, h⟩ | ⟨_, _, _, _, h⟩ <;> exact h ▸ rfl

theorem decodeBody_cmdOp (parse : List Byte → DecodeResult) (s : State) :
    (decodeBody parse s).cmdOp = s.cmdOp := by
  rcases decodeBody_cases parse s with ⟨_, h⟩ | ⟨_, _, h⟩ | ⟨_, _, h⟩ | ⟨_, _, _, _, h⟩ <;>
    exact h ▸ rfl

/-- The completion of the pending operation ends with BUSY = 0 and DONE = 1 and keeps CMD.OP
(44_command_interface.md R116). -/
theorem exec_decodeOp_complete_of_pending {s : State} (hb : s.busy = true) :
    ∃ t, exec (decodeOp s.cmdOp .complete) s = .next t ∧ t.busy = false ∧ t.done = true ∧
      t.cmdOp = s.cmdOp := by
  obtain ⟨body, hexec, hbody⟩ := exec_decodeOp s.cmdOp .complete s
  have hop : (body s).cmdOp = s.cmdOp := by
    rcases hbody with rfl | rfl | rfl | rfl
    · exact cksumBody_cmdOp s
    · exact encodeBody_cmdOp s
    · exact decodeBody_cmdOp _ s
    · rfl
  exact ⟨finish (body s), hexec.trans (congrArg Host.Outcome.next (completeCommand_of_pending hb rfl)),
    rfl, rfl, hop⟩

/-- The completion of a pending reserved operation only records BAD_COMMAND (44_command_interface.md R118). -/
theorem commandStep_reservedBody_of_pending {s : State} {op : BitVec 3} (hb : s.busy = true)
    (ho : s.cmdOp = op) : commandStep op reservedBody .complete s =
      { s with err := 3, busy := false, done := true } :=
  completeCommand_of_pending hb ho

/-! ### What a step fetches -/

theorem consume_of_nil {s : State} (hi : s.inputs = []) : consume s = s := by
  obtain ⟨⟩ := s
  subst hi
  rfl

theorem consume_of_cons {s : State} {e : Event} {rest : List Event} (hi : s.inputs = e :: rest) :
    consume s = { s with inputs := rest } := by
  rw [consume, hi, List.tail_cons]

theorem fetched_of_host {s : State} {tx : Transaction} {rest : List Event}
    (hi : s.inputs = .host tx :: rest) : fetched s = .run (.tx tx) := by
  rw [fetched, hi]

/-- BUSY enables the engine's step (44_command_interface.md R116). -/
theorem fetchedEngine_of_busy {s : State} (hb : s.busy = true) : fetchedEngine s = .run (engineCode s) :=
  if_pos hb

theorem fetched_of_nil {s : State} (hi : s.inputs = []) : fetched s = fetchedEngine s := by
  rw [fetched, hi]

theorem fetched_of_engine {s : State} {rest : List Event} (hi : s.inputs = .engine :: rest) :
    fetched s = fetchedEngine s := by
  rw [fetched, hi]

/-- A step runs the instruction of the code it fetches. -/
theorem step_of_fetched_run {s : State} {code : Code} {i : Instr} (hf : fetched s = .run code)
    (hd : decode code = .ok i) : step s = exec i (consume s) := by
  simp only [step, hf, hd]

/-- The code the engine fetches decodes, and its instruction does what the completion of the operation in
CMD.OP does, also where that code is a dispatch key (log 10). -/
theorem exec_engineCode (s : State) :
    ∃ i, decode (engineCode s) = .ok i ∧ exec i s = exec (decodeOp s.cmdOp .complete) s := by
  by_cases hkey : readsKey s = true ∧ (decodeKey Config.codes (inputKey s)).isSome = true
  · obtain ⟨hr, hsome⟩ := hkey
    obtain ⟨e, he⟩ := Option.isSome_iff_exists.mp hsome
    have hk := decodeKey_some he
    obtain ⟨_, hop, _⟩ := readsKey_eq_true.mp hr
    refine ⟨e.instr, ?_, ?_⟩
    · rw [engineCode, if_pos ⟨hr, hsome⟩, hk, decode_key_entry]
    · rw [frameInstructionAgreesWithDecode s e hr hk, hop]
      rfl
  · rw [engineCode, if_neg hkey]
    exact ⟨_, rfl, rfl⟩

/-! ### The statements -/

/-- Settles O34: the engine's code stands for the completion of the operation in CMD.OP, and that is one
command for each of the eight operations. -/
theorem engineStepCompletesThePendingCommand : Obligations.EngineStepCompletesThePendingCommand := by
  intro s rest hb hi
  obtain ⟨i, hd, hexec⟩ := exec_engineCode (consume s)
  obtain ⟨t, ht, hbusy, hdone, hop⟩ := exec_decodeOp_complete_of_pending (s := consume s) hb
  have hf : fetched s = .run (engineCode s) := (fetched_of_engine hi).trans (fetchedEngine_of_busy hb)
  have hstep : step s = .next t := (step_of_fetched_run hf hd).trans (hexec.trans ht)
  have hcommand : ∀ {o : BitVec 3} {i : Instr}, decodeOp o .complete = i → s.cmdOp = o →
      exec i { s with inputs := rest } = .next t := by
    rintro _ _ rfl rfl
    exact consume_of_cons hi ▸ ht
  exact ⟨t, hstep, hbusy, hdone, hop, hcommand rfl, hcommand rfl, hcommand rfl, hcommand rfl,
    hcommand rfl, hcommand rfl, hcommand rfl, hcommand rfl⟩

/-- Settles O19: each start row is the start of its operation. -/
theorem idleCmdWriteStartsTheCommand : Obligations.IdleCmdWriteStartsTheCommand := by
  intro s hb
  have hstart := exec_decodeOp_start_of_idle hb
  exact ⟨hstart 1, hstart 2, hstart 3, hstart 0, hstart 4, hstart 5, hstart 6, hstart 7⟩

/-- Settles O25: the five reserved rows have one body. -/
theorem reservedOperationsFailWithBadCommand : Obligations.ReservedOperationsFailWithBadCommand := by
  intro s hb
  have hfail : ∀ {op : BitVec 3}, s.cmdOp = op →
      Host.Outcome.next (commandStep op reservedBody .complete s) =
        (.next { s with err := 3, busy := false, done := true } : Host.Outcome State Fault Refusal) :=
    fun ho => congrArg Host.Outcome.next (commandStep_reservedBody_of_pending hb ho)
  exact ⟨hfail, hfail, hfail, hfail, hfail⟩

/-- Settles O33: the three forms of the next event, each with the code that it presents. -/
theorem stepRunsTheDecodedInstruction : Obligations.StepRunsTheDecodedInstruction := by
  refine ⟨fun s tx rest i hi hd => ?_, fun s i hb hi hd => ?_, fun s rest i hb hi hd => ?_⟩
  · rw [step_of_fetched_run (fetched_of_host hi) hd, consume_of_cons hi]
  · have hf := (fetched_of_nil hi).trans (fetchedEngine_of_busy hb)
    rw [step_of_fetched_run hf hd, consume_of_nil hi]
  · have hf := (fetched_of_engine hi).trans (fetchedEngine_of_busy hb)
    rw [step_of_fetched_run hf hd, consume_of_cons hi]

end Sys2Proof.Machine

/-! SUPPORT. The four access forms on an operand in their window: what sw and lw do at each register, and sb and
lb at each region (44_command_interface.md R111 to R114). -/
namespace Sys2Proof.Machine

/-! ### The four forms on a legal operand -/

theorem exec_sw_of_legal {a : Offset} (h : legalWordOffset a = true) (w : Word) (s : State) :
    exec (.sw a w) s = .next (respond .ack (writeRegister (regAt a) w s)) := if_pos h

theorem exec_lw_of_legal {a : Offset} (h : legalWordOffset a = true) (s : State) :
    exec (.lw a) s = .next (respond (.word (readRegister (regAt a) s)) s) := if_pos h

theorem exec_sb_of_legal {a : Offset} (h : legalByteOffset a = true) (v : Byte) (s : State) :
    exec (.sb a v) s = .next (respond .ack (writeWindowByte a v s)) := if_pos h

theorem exec_lb_of_legal {a : Offset} (h : legalByteOffset a = true) (s : State) :
    exec (.lb a) s = .next (respond (.byte (readWindowByte a s)) s) := if_pos h

/-! ### Registers -/

/-- The low bits of a word, as a number reduced to their width. -/
theorem extractLsb'_eq_ofNat {n : Nat} (hn : n ≤ 32) (w : Word) :
    w.extractLsb' 0 n = BitVec.ofNat n w.toNat := by
  rw [BitVec.ofNat_toNat, BitVec.setWidth_eq_extractLsb' hn]

/-- A write of a register under the input lock is done while idle. -/
theorem exec_sw_locked_of_idle {a : Offset} {w : Word} {s : State} {write : State → State}
    (ha : legalWordOffset a = true) (hw : writeRegister (regAt a) w s = lockedWrite write s)
    (hb : s.busy = false) : exec (.sw a w) s = .next (respond .ack (write s)) := by
  rw [exec_sw_of_legal ha, hw, lockedWrite_of_idle hb]

/-- A read of a register that holds one field returns the field's value. -/
theorem exec_lw_field {a : Offset} {s : State} {n : Nat} {v : BitVec n} (ha : legalWordOffset a = true)
    (hv : readRegister (regAt a) s = zext32 v) :
    exec (.lw a) s = .next { s with resp := .word (BitVec.ofNat 32 v.toNat) } := by
  rw [exec_lw_of_legal ha, hv, BitVec.ofNat_toNat]
  rfl

theorem exec_lw_status (s : State) : exec (.lw 0x004) s = .next { s with resp := .word (BitVec.ofNat 32
    (s.busy.toNat + 2 * s.done.toNat + 16 * s.err.toNat + 256 * s.busyWr.toNat)) } := by
  rw [← statusValue_toNat, BitVec.ofNat_toNat, BitVec.setWidth_eq]
  rfl

theorem exec_lw_ctrl (s : State) :
    exec (.lw 0x008) s = .next { s with resp := .word (BitVec.ofNat 32 s.irqEn.toNat) } := by
  rw [← BitVec.toNat_ofBool]
  exact exec_lw_field rfl rfl

theorem exec_lw_decField (i : Fin 8) (s : State) : exec (.lw (BitVec.ofNat 12 (0x040 + 4 * i.val))) s =
    .next { s with resp := .word (BitVec.ofNat 32 s.decField[i].toNat) } := by
  have hlegal : ∀ i : Fin 8, legalWordOffset (BitVec.ofNat 12 (0x040 + 4 * i.val)) = true := by decide
  exact exec_lw_field (hlegal i) (by rw [regAt_decField, readRegister])

/-- Where the registers stand (10_state.md R16). -/
theorem registerMap_offset_lt : ∀ p ∈ registerMap,
    p.1.toNat < 0x028 ∨ (0x040 ≤ p.1.toNat ∧ p.1.toNat < 0x060) := by
  decide

/-- The offsets between DEC_COUNT and DEC_FIELD0 and those after DEC_FIELD7 are reserved. -/
theorem regAt_of_gap {a : Offset} (h : (0x028 ≤ a.toNat ∧ a.toNat < 0x040) ∨ 0x060 ≤ a.toNat) :
    regAt a = .reserved := by
  refine regAt_reserved ?_
  rintro p hp rfl
  have := registerMap_offset_lt p hp
  omega

/-- Only the six registers with a write effect are changed by a write (20_memory.md R41). -/
theorem writeRegister_regAt_ignored {a : Offset} (h0 : a ≠ 0x000) (h4 : a ≠ 0x004) (h8 : a ≠ 0x008)
    (hC : a ≠ 0x00C) (h14 : a ≠ 0x014) (h18 : a ≠ 0x018) (w : Word) (s : State) :
    writeRegister (regAt a) w s = s := by
  obtain ⟨hcmd, hstatus, hctrl, hibufLen, hencCat, hencFn⟩ := @regAt_written a
  cases hr : regAt a with
  | cmd => exact absurd (hcmd hr) h0
  | status => exact absurd (hstatus hr) h4
  | ctrl => exact absurd (hctrl hr) h8
  | ibufLen => exact absurd (hibufLen hr) hC
  | encCat => exact absurd (hencCat hr) h14
  | encFn => exact absurd (hencFn hr) h18
  | obufLen | cksumResult | decKind | decCount | decField | reserved => rfl

/-- A CTRL word means what its row means, on both sides of bit 31. -/
theorem exec_decodeCtrlWord (w : Word) (s : State) :
    exec (decodeCtrlWord w) s = .next (respond .ack (writeCtrl w s)) := by
  rw [decodeCtrlWord, writeCtrl]
  split <;> rfl

/-! ### Regions -/

theorem writeWindowByte_of_ibuf {a : Offset} (h : regionAt a = .ibuf) (v : Byte) (s : State) :
    writeWindowByte a v s = lockedWrite (fun s => s.writeByte a.toNat v) s := by
  rw [writeWindowByte, h]

/-- OBUF and the reserved offsets ignore a byte write (20_memory.md R41). -/
theorem writeWindowByte_of_not_ibuf {a : Offset} (h : regionAt a ≠ .ibuf) (v : Byte) (s : State) :
    writeWindowByte a v s = s := by
  rw [writeWindowByte]
  cases hr : regionAt a with
  | ibuf => exact absurd hr h
  | obuf | reserved => rfl

theorem readWindowByte_of_ibuf {a : Offset} (h : regionAt a = .ibuf) (s : State) :
    readWindowByte a s = s.readByte a.toNat := by
  rw [readWindowByte, h]

theorem readWindowByte_of_obuf {a : Offset} (h : regionAt a = .obuf) (s : State) :
    readWindowByte a s = s.readByte a.toNat := by
  rw [readWindowByte, h]

theorem readWindowByte_of_reserved {a : Offset} (h : regionAt a = .reserved) (s : State) :
    readWindowByte a s = 0 := by
  rw [readWindowByte, h]

/-! ### The statements -/

/-- Settles O41: one field each but for STATUS, and nothing at the offsets between and after the registers. -/
theorem lwReturnsTheRegister : Obligations.LwReturnsTheRegister := by
  intro s
  refine ⟨exec_lw_field rfl rfl, exec_lw_status s, exec_lw_ctrl s, exec_lw_field rfl rfl,
    exec_lw_field rfl rfl, exec_lw_field rfl rfl, exec_lw_field rfl rfl, exec_lw_field rfl rfl,
    exec_lw_field rfl rfl, exec_lw_field rfl rfl, fun i => exec_lw_decField i s,
    fun a hwin hal hgap => ?_⟩
  rw [exec_lw_of_legal (legalWordOffset_iff.mpr ⟨hwin, hal⟩), regAt_of_gap hgap]
  rfl

/-- Settles O42, by the region and, in IBUF, the input lock. -/
theorem sbWritesOneInputByte : Obligations.SbWritesOneInputByte := by
  intro s a v
  refine ⟨fun hlo hhi hb => ?_, fun hlo hhi hb => ?_, fun hlo => ?_⟩
  · refine ⟨respond .ack (s.writeByte a.toNat v), ?_, readByte_writeByte_same s _ v,
      fun b hne => readByte_writeByte_other s v hne, rfl⟩
    rw [exec_sb_of_legal (legalByteOffset_iff.mpr hlo), writeWindowByte_of_ibuf (regionAt_ibuf hlo hhi),
      lockedWrite_of_idle hb]
  · rw [exec_sb_of_legal (legalByteOffset_iff.mpr hlo), writeWindowByte_of_ibuf (regionAt_ibuf hlo hhi),
      lockedWrite_of_busy hb]
    rfl
  · have hregion : regionAt a ≠ .ibuf := fun hr => by
      have := (regionAt_eq_ibuf.mp hr).2
      omega
    rw [exec_sb_of_legal (legalByteOffset_iff.mpr (by omega)), writeWindowByte_of_not_ibuf hregion]
    rfl

/-- Settles O38: the three input registers store their low bits. -/
theorem idleInputRegisterWrites : Obligations.IdleInputRegisterWrites := by
  intro s w hb
  rw [← extractLsb'_eq_ofNat (by decide) w, ← extractLsb'_eq_ofNat (by decide) w]
  exact ⟨exec_sw_locked_of_idle (a := 0x00C) rfl rfl hb, exec_sw_locked_of_idle (a := 0x014) rfl rfl hb,
    exec_sw_locked_of_idle (a := 0x018) rfl rfl hb⟩

/-- Settles O39: a read-only register or a reserved offset is none of the six with a write effect. -/
theorem otherRegisterWritesAreIgnored : Obligations.OtherRegisterWritesAreIgnored := by
  intro s a w hwin hal h0 h4 h8 hC h14 h18
  rw [exec_sw_of_legal (legalWordOffset_iff.mpr ⟨hwin, hal⟩),
    writeRegister_regAt_ignored h0 h4 h8 hC h14 h18]
  rfl

/-- Settles O40: the word of each of the three registers has the meaning of the register's write. -/
theorem swAgreesWithTheWordRows : Obligations.SwAgreesWithTheWordRows :=
  fun s w => ⟨(exec_decodeOp_start _ s).symm, (exec_clearStatus _ _ s).symm, (exec_decodeCtrlWord w s).symm⟩

/-- Settles O43, region by region. -/
theorem lbReturnsTheByte : Obligations.LbReturnsTheByte := by
  intro s a
  refine ⟨fun hlo hhi => ?_, fun hlo hhi => ?_, fun hres => ?_⟩
  · rw [exec_lb_of_legal (legalByteOffset_iff.mpr hlo), readWindowByte_of_ibuf (regionAt_ibuf hlo hhi),
      Nat.add_sub_of_le hlo]
    rfl
  · rw [exec_lb_of_legal (legalByteOffset_iff.mpr (by omega)),
      readWindowByte_of_obuf (regionAt_obuf hlo hhi), Nat.add_sub_of_le hlo]
    rfl
  · rw [exec_lb_of_legal (legalByteOffset_iff.mpr (by omega)),
      readWindowByte_of_reserved (regionAt_reserved (by omega) (by omega))]
    rfl

end Sys2Proof.Machine

/-! SUPPORT. What stops a step: nothing of the engine's and no legal transaction, so a legal agenda runs on; and
what an idle block does (60_exceptions.md R120, R121, R133). -/
namespace Sys2Proof.Machine

/-! ### A well-formed instruction answers a next state -/

/-- Only the four access forms can stop, each on an operand outside its window, which no well-formed instruction
has (30_encoding.md R69). -/
theorem exec_next_of_wellFormed {i : Instr} (h : i.wellFormed = true) (s : State) :
    ∃ t, exec i s = .next t := by
  cases i with
  | sw a w =>
    obtain ⟨ha, _⟩ := wellFormed_sw_iff.mp h
    exact ⟨_, exec_sw_of_legal ha w s⟩
  | lw a => exact ⟨_, exec_lw_of_legal (wellFormed_lw_iff.mp h) s⟩
  | sb a v => exact ⟨_, exec_sb_of_legal (wellFormed_sb_iff.mp h) v s⟩
  | lb a => exact ⟨_, exec_lb_of_legal (wellFormed_lb_iff.mp h) s⟩
  | _ => exact ⟨_, rfl⟩

/-! ### The step on each kind of event -/

/-- A step whose code decodes answers a next state: the decoder gives well-formed instructions only. -/
theorem step_next_of_decode {s : State} {code : Code} {i : Instr} (hf : fetched s = .run code)
    (hd : decode code = .ok i) : ∃ t, step s = .next t := by
  rw [step_of_fetched_run hf hd]
  exact exec_next_of_wellFormed (decodedInstructionIsWellFormed code i hd) (consume s)

theorem step_of_fetched_idle {s : State} (hf : fetched s = .idle) : step s = .next (consume s) := by
  simp only [step, hf]

theorem step_of_powerOn {s : State} {rest : List Event} (hi : s.inputs = .powerOn :: rest) :
    step s = .next (powerOnReset (consume s)) := by
  have hf : fetched s = .powerOn := by rw [fetched, hi]
  simp only [step, hf]

/-- BUSY = 0 disables the engine's step (44_command_interface.md R116; log 3). -/
theorem fetchedEngine_of_idle {s : State} (hb : s.busy = false) : fetchedEngine s = .idle :=
  if_neg (ne_true_of_eq_false hb)

/-- The engine's turn never stops: it idles, or its code decodes; the fetch presents only keys with an entry. -/
theorem step_next_of_fetchedEngine {s : State} (hf : fetched s = fetchedEngine s) :
    ∃ t, step s = .next t := by
  cases hb : s.busy with
  | false => exact ⟨_, step_of_fetched_idle (hf.trans (fetchedEngine_of_idle hb))⟩
  | true =>
    obtain ⟨i, hd, _⟩ := exec_engineCode s
    exact step_next_of_decode (hf.trans (fetchedEngine_of_busy hb)) hd

/-- A step answers a next state, or its event is an illegal transaction (20_memory.md R40). -/
theorem step_next_or_illegal (s : State) : (∃ t, step s = .next t) ∨
    ∃ tx rest, s.inputs = .host tx :: rest ∧ ¬legalTransaction tx = true := by
  match hi : s.inputs with
  | [] => exact .inl (step_next_of_fetchedEngine (fetched_of_nil hi))
  | .engine :: _ => exact .inl (step_next_of_fetchedEngine (fetched_of_engine hi))
  | .powerOn :: _ => exact .inl ⟨_, step_of_powerOn hi⟩
  | .host tx :: rest =>
    by_cases hl : legalTransaction tx = true
    · obtain ⟨i, hd⟩ := decode_of_legalTransaction hl
      exact .inl (step_next_of_decode (fetched_of_host hi) hd)
    · exact .inr ⟨tx, rest, rfl, hl⟩

/-! ### The agenda -/

theorem cksumBody_inputs (s : State) : (cksumBody s).inputs = s.inputs := by
  rcases cksumBody_cases s with ⟨_, h⟩ | ⟨_, h⟩ <;> exact h ▸ rfl

theorem encodeBody_inputs (s : State) : (encodeBody s).inputs = s.inputs := by
  rcases encodeBody_cases s with ⟨_, h⟩ | ⟨_, _, h⟩ | ⟨_, _, _, _, h⟩ <;> exact h ▸ rfl

theorem decodeBody_inputs (parse : List Byte → DecodeResult) (s : State) :
    (decodeBody parse s).inputs = s.inputs := by
  rcases decodeBody_cases parse s with ⟨_, h⟩ | ⟨_, _, h⟩ | ⟨_, _, h⟩ | ⟨_, _, _, _, h⟩ <;>
    exact h ▸ rfl

/-- A host transaction leaves what comes next to the environment (log 1). -/
theorem HostEffect.inputs_eq {tx : Transaction} {s t : State} (h : HostEffect tx s t) :
    t.inputs = s.inputs := by
  cases h <;> next ht => exact ht ▸ rfl

/-- An engine step leaves what comes next to the environment (log 1). -/
theorem EngineEffect.inputs_eq {s t : State} (h : EngineEffect s t) : t.inputs = s.inputs := by
  cases h with
  | cksum _ ht => exact ht ▸ cksumBody_inputs s
  | encode _ ht => exact ht ▸ encodeBody_inputs s
  | decode _ ht => exact ht ▸ decodeBody_inputs _ s
  | frame _ _ _ _ ht => exact ht ▸ decodeBody_inputs _ s
  | reserved _ ht => exact ht ▸ rfl

/-- A step takes the first event off the agenda and leaves the others. -/
theorem step_inputs {s t : State} (h : step s = .next t) : t.inputs = s.inputs.tail := by
  rcases step_effect h with ⟨_, _, rfl⟩ | ⟨_, rfl⟩ | ⟨_, _, _, _, he⟩ | ⟨_, _, he⟩
  · rfl
  · rfl
  · exact he.inputs_eq
  · exact he.inputs_eq

theorem inputsLegal_iff {s : State} :
    inputsLegal s = true ↔ ∀ tx, .host tx ∈ s.inputs → legalTransaction tx = true := by
  rw [inputsLegal, List.all_eq_true]
  refine ⟨fun h tx hmem => h _ hmem, fun h e hmem => ?_⟩
  cases e with
  | host tx => exact h tx hmem
  | engine => rfl
  | powerOn => rfl

/-- With a legal agenda a step answers a next state, whose agenda is legal too. -/
theorem step_next_of_inputsLegal {s : State} (h : inputsLegal s = true) :
    ∃ t, step s = .next t ∧ inputsLegal t = true := by
  rw [inputsLegal_iff] at h
  rcases step_next_or_illegal s with ⟨t, ht⟩ | ⟨tx, rest, hi, hn⟩
  · refine ⟨t, ht, inputsLegal_iff.mpr fun tx hmem => h tx ?_⟩
    rw [step_inputs ht] at hmem
    exact List.mem_of_mem_tail hmem
  · exact absurd (h tx (hi ▸ List.mem_cons_self)) hn

/-! ### Runs -/

theorem run_succ_of_next {s t : State} (h : step s = .next t) (k : Nat) :
    Host.Core.run Sys2Proof.core (k + 1) s = Host.Core.run Sys2Proof.core k t := by
  have hcore : Sys2Proof.core.step s = .next t := h
  simp only [Host.Core.run, hcore]

/-- A predicate under which every step answers a next state that has it too lets every run go on, and holds at its
end. -/
theorem run_next_of_preserved {P : State → Prop} (hP : ∀ s, P s → ∃ t, step s = .next t ∧ P t) (k : Nat) :
    ∀ s : State, P s → ∃ t : State, Host.Core.run Sys2Proof.core k s = .next t ∧ P t := by
  induction k with
  | zero => exact fun s hs => ⟨s, rfl, hs⟩
  | succ k ih =>
    intro s hs
    obtain ⟨t, hstep, ht⟩ := hP s hs
    rw [run_succ_of_next hstep]
    exact ih t ht

/-! ### The statements -/

/-- Settles O36: the engine's turn and a legal transaction answer a next state, an illegal one a bus error. -/
theorem onlyIllegalTransactionsStopTheBlock : Obligations.OnlyIllegalTransactionsStopTheBlock := by
  intro s
  refine (step_next_or_illegal s).imp_right ?_
  rintro ⟨tx, rest, hi, hn⟩
  exact ⟨tx, rest, hi, mt legalTransaction_iff.mpr hn, step_of_illegalTransaction hi hn⟩

/-- Settles O37, by induction on the number of steps: a step takes one event off a legal agenda. -/
theorem legalAgendaNeverStops : Obligations.LegalAgendaNeverStops := by
  intro k s hs
  obtain ⟨t, hrun, _⟩ := run_next_of_preserved (fun _ => step_next_of_inputsLegal) k s hs
  exact ⟨t, hrun⟩

/-- Settles O35: with BUSY = 0 the engine's turn finds nothing to do. -/
theorem idleBlockChangesNothing : Obligations.IdleBlockChangesNothing := by
  intro s hb
  refine ⟨fun hi => ?_, fun rest hi => ?_⟩
  · rw [step_of_fetched_idle ((fetched_of_nil hi).trans (fetchedEngine_of_idle hb)), consume_of_nil hi]
  · rw [step_of_fetched_idle ((fetched_of_engine hi).trans (fetchedEngine_of_idle hb)), consume_of_cons hi]

end Sys2Proof.Machine

/-! SUPPORT. The input lock while a command is pending, and what the two resets leave in the registers
(70_reset_and_hazards.md R134, R135, R137). -/
namespace Sys2Proof.Machine

/-! ### The input lock -/

/-- A CMD write while a command is pending is dropped, whichever operation it names. -/
theorem exec_decodeOp_start_of_busy {s : State} (hb : s.busy = true) (o : BitVec 3) :
    exec (decodeOp o .start) s = .next { s with busyWr := true, resp := .ack } := by
  rw [exec_decodeOp_start, writeCmd, lockedWrite_of_busy hb]
  rfl

/-- A write of a register under the input lock is dropped while a command is pending. -/
theorem exec_sw_locked_of_busy {a : Offset} {w : Word} {s : State} {write : State → State}
    (ha : legalWordOffset a = true) (hw : writeRegister (regAt a) w s = lockedWrite write s)
    (hb : s.busy = true) : exec (.sw a w) s = .next { s with busyWr := true, resp := .ack } := by
  rw [exec_sw_of_legal ha, hw, lockedWrite_of_busy hb]
  rfl

/-! ### The registers after a reset -/

/-- The reset value of DEC_FIELD0 to DEC_FIELD7, as one value repeated. -/
theorem reset_decField_eq_replicate : State.reset.decField = Vector.replicate 8 0 := rfl

/-- After power-on the state is the reset state, but for the model's own agenda and epoch (log 6). -/
theorem eq_reset_of_powerOn {s : State}
    (h : s = State.reset ∨ ∃ r : State, ∃ rest, r.inputs = .powerOn :: rest ∧ step r = .next s) :
    ∃ agenda n, s = { State.reset with inputs := agenda, epoch := n } := by
  rcases h with rfl | ⟨r, rest, hi, hstep⟩
  · exact ⟨_, _, rfl⟩
  · rw [step_of_powerOn hi] at hstep
    cases hstep
    exact ⟨_, _, rfl⟩

/-! ### The statements -/

/-- Settles O20: the command starts, the four input registers and the bytes of IBUF are all written through the
input lock. -/
theorem busyInputWritesAreDropped : Obligations.BusyInputWritesAreDropped := by
  intro s hb
  refine ⟨?_, fun a w ha => ?_, fun a v hlo hhi => ?_⟩
  · show ∀ i ∈ ([1, 2, 3, 0, 4, 5, 6, 7] : List (BitVec 3)).map (decodeOp · .start), _
    exact List.forall_mem_map.mpr fun o _ => exec_decodeOp_start_of_busy hb o
  · rcases ha with rfl | rfl | rfl | rfl <;> exact exec_sw_locked_of_busy rfl rfl hb
  · obtain ⟨_, hdropped, _⟩ := sbWritesOneInputByte s a v
    exact hdropped hlo hhi hb

/-- Settles O47: the soft reset is the reset state but for the memory and the model's own fields. -/
theorem softResetClearsRegistersAndKeepsBuffers : Obligations.SoftResetClearsRegistersAndKeepsBuffers := by
  intro s
  refine ⟨respond .ack (softReset s), rfl, ?_⟩
  rw [← reset_decField_eq_replicate]
  rfl

/-- Settles O54: a power-on, the first or a later one, leaves the registers of the reset state. -/
theorem powerOnClearsEveryRegister : Obligations.PowerOnClearsEveryRegister := by
  intro s h
  obtain ⟨agenda, n, rfl⟩ := eq_reset_of_powerOn h
  refine ⟨rfl, rfl, rfl, rfl, rfl, rfl, rfl, rfl, rfl, rfl, rfl, rfl, rfl, fun i => ?_, rfl⟩
  rw [reset_decField_eq_replicate, Fin.getElem_fin, Vector.getElem_replicate]

end Sys2Proof.Machine
